-- ==== Sys2Proof/Word.lean ====
section
/-! DEFINITION. The word types of JakVM: 16-bit registers and addresses, 8-bit bytes
(spec 10_state.md R20, R23; 20_memory.md R60). -/

namespace Sys2Proof

/-- A general register, the program counter, or an address: 16 bits (R20, R23, R60). -/
abbrev Word := BitVec 16

/-- A byte of memory or of an instruction, or one of the 8-bit registers RS and RF (R28, R32, R60). -/
abbrev Byte := BitVec 8

end Sys2Proof
end

