-- ==== Sys2Proof/Syntax.lean ====
section
/-! DEFINITION. The instructions of JakVM as a datatype: one constructor for each of the 77 rows of
spec/opcode_table.json (30_encoding.md R105, R107, R108). The eight two-form mnemonics have a constructor for each
form (`addR`, `addI`). Ignored bits are kept as fields named `ign` (R109; log 13). -/

namespace Sys2Proof

/-- The four general registers, selector codes 00 to 11 in this order (10_state.md R20). -/
inductive Reg where
  | ax
  | bx
  | cx
  | sp
  deriving DecidableEq, Repr

/-- The instructions, in the order of spec/opcode_table.json. -/
inductive Instr where
  -- format N (R92): control
  /-- NOP, 0x00 (R130). -/
  | nop
  /-- INT, 0x01 (R131). -/
  | int
  /-- ENI, 0x02 (R132). -/
  | eni
  /-- DEI, 0x03 (R133). -/
  | dei
  /-- RST, 0x04 (R134). -/
  | rst
  /-- HLT, 0x05 (R135). -/
  | hlt
  /-- CMP, 0x08 (R136). -/
  | cmp
  /-- RET, 0x09 (R137). -/
  | ret
  -- format R (R93) and A16 (R101): stack and jumps
  /-- PUS r, 0x10 + r (R150). -/
  | pus (r : Reg)
  /-- POP r, 0x14 + r (R151). -/
  | pop (r : Reg)
  /-- LJP addr16, 0x1F (R152). -/
  | ljp (addr16 : Word)
  /-- JMP r, 0x24 + r (R153). -/
  | jmp (r : Reg)
  /-- JIZ r, 0x28 + r (R154). -/
  | jiz (r : Reg)
  /-- JNZ r, 0x2C + r (R155). -/
  | jnz (r : Reg)
  /-- JLT r, 0x30 + r (R156). -/
  | jlt (r : Reg)
  /-- JGE r, 0x34 + r (R157). -/
  | jge (r : Reg)
  /-- JOF r, 0x38 + r (R158). -/
  | jof (r : Reg)
  /-- JNF r, 0x3C + r (R159). -/
  | jnf (r : Reg)
  -- format RR (R94): move, load, store
  /-- MOV rM, rL: destination rM (R170). -/
  | mov (rM rL : Reg)
  /-- LOD rM, [rL] (R171). -/
  | lod (rM rL : Reg)
  /-- STO [rM], rL (R172). -/
  | sto (rM rL : Reg)
  -- formats R and RR: bitwise
  /-- NEG r, 0x80 + r (R180). -/
  | neg (r : Reg)
  /-- NOT r, 0x84 + r (R181). -/
  | not (r : Reg)
  /-- AND rM, rL (R182). -/
  | and (rM rL : Reg)
  /-- IOR rM, rL (R183). -/
  | ior (rM rL : Reg)
  /-- XOR rM, rL (R184). -/
  | xor (rM rL : Reg)
  -- format A2R (R95): arithmetic, register form
  /-- ADD rM, rL, 0xC0 with B1[7:4] = 0 (R191). -/
  | addR (rM rL : Reg)
  /-- SUB rM, rL, 0xC1 with B1[7:4] = 0 (R192). -/
  | subR (rM rL : Reg)
  /-- MUL rM, rL, 0xC2 with B1[7:4] = 0 (R193). -/
  | mulR (rM rL : Reg)
  /-- DIV rM, rL, 0xC3 with B1[7:4] = 0 (R194). -/
  | divR (rM rL : Reg)
  -- format A2I (R96): arithmetic, immediate form, imm4 not 0
  /-- ADD r, #imm4, 0xC0 (R191). -/
  | addI (imm4 : BitVec 4) (r : Reg) (ign : BitVec 2)
  /-- SUB r, #imm4, 0xC1 (R192). -/
  | subI (imm4 : BitVec 4) (r : Reg) (ign : BitVec 2)
  /-- MUL r, #imm4, 0xC2 (R193). -/
  | mulI (imm4 : BitVec 4) (r : Reg) (ign : BitVec 2)
  /-- DIV r, #imm4, 0xC3 (R194). -/
  | divI (imm4 : BitVec 4) (r : Reg) (ign : BitVec 2)
  -- formats A16 (R101) and RO (R102): subroutine
  /-- CAL addr16, 0xD0 (R210). -/
  | cal (addr16 : Word)
  /-- RCL addr16, 0xD1 (R211). -/
  | rcl (addr16 : Word)
  /-- CAR r, #off12, 0xD2, the spec's repair (R106, R212; log 12). -/
  | car (ign : BitVec 2) (r : Reg) (off12 : BitVec 12)
  /-- RCR r, #off12, 0xD3, the spec's repair (R106, R213; log 12). -/
  | rcr (ign : BitVec 2) (r : Reg) (off12 : BitVec 12)
  -- format I8 (R97): interrupt-flag check
  /-- IRF #mask8, 0xE3 (R220). -/
  | irf (mask8 : Byte)
  -- format A2R: shifts, register form
  /-- ROL rM, rL, 0xE4 with B1[7:4] = 0 (R222). -/
  | rolR (rM rL : Reg)
  /-- ROR rM, rL, 0xE5 with B1[7:4] = 0 (R223). -/
  | rorR (rM rL : Reg)
  /-- SHL rM, rL, 0xE6 with B1[7:4] = 0 (R224). -/
  | shlR (rM rL : Reg)
  /-- SHR rM, rL, 0xE7 with B1[7:4] = 0 (R225). -/
  | shrR (rM rL : Reg)
  -- format A2I: shifts, immediate form, imm4 not 0
  /-- ROL r, #imm4, 0xE4 (R222). -/
  | rolI (imm4 : BitVec 4) (r : Reg) (ign : BitVec 2)
  /-- ROR r, #imm4, 0xE5 (R223). -/
  | rorI (imm4 : BitVec 4) (r : Reg) (ign : BitVec 2)
  /-- SHL r, #imm4, 0xE6 (R224). -/
  | shlI (imm4 : BitVec 4) (r : Reg) (ign : BitVec 2)
  /-- SHR r, #imm4, 0xE7 (R225). -/
  | shrI (imm4 : BitVec 4) (r : Reg) (ign : BitVec 2)
  -- format M3 (R98): clear flags
  /-- CLI, 0xE8, mask bits in the order Z, C, S (R240). -/
  | cli (mZ mC mS : Bool) (ign : BitVec 5)
  -- format I8: immediate jumps
  /-- JMI off8, 0xE9 (R241). -/
  | jmi (off8 : Byte)
  /-- JZI off8, 0xEA (R242). -/
  | jzi (off8 : Byte)
  /-- JNI off8, 0xEB (R243). -/
  | jni (off8 : Byte)
  /-- JLI off8, 0xEC (R244). -/
  | jli (off8 : Byte)
  /-- JGI off8, 0xED (R245). -/
  | jgi (off8 : Byte)
  /-- JOI off8, 0xEE (R246). -/
  | joi (off8 : Byte)
  /-- JUI off8, 0xEF (R247). -/
  | jui (off8 : Byte)
  -- formats X4 (R99) and X2 (R100): indexed memory
  /-- LDI rM, [rL + #imm4], 0xF0 (R260). -/
  | ldi (imm4 : BitVec 4) (rM rL : Reg)
  /-- STI [rM + #imm4], rL, 0xF1 (R261). -/
  | sti (imm4 : BitVec 4) (rM rL : Reg)
  /-- LRI rM, [rL + rMid + #imm2], 0xF2 (R262). -/
  | lri (imm2 : BitVec 2) (rM rMid rL : Reg)
  /-- SRI [rMid + rM + #imm2], rL, 0xF3 (R263). -/
  | sri (imm2 : BitVec 2) (rM rMid rL : Reg)
  -- formats RI16 (R103) and R: immediate load, increment, decrement
  /-- MVI r, #imm16, 0xF4 + r (R270). -/
  | mvi (r : Reg) (imm16 : Word)
  /-- INC r, 0xF8 + r (R271). -/
  | inc (r : Reg)
  /-- DEC r, 0xFC + r (R272). -/
  | dec (r : Reg)
  -- reserved first bytes (R107; log 11); `low` is the part of the byte the row's pattern leaves open
  /-- reserved, 0x0A - 0x0B. -/
  | reserved0A (low : BitVec 1)
  /-- reserved, 0x0C - 0x0F. -/
  | reserved0C (low : BitVec 2)
  /-- reserved, 0x18 - 0x1B. -/
  | reserved18 (low : BitVec 2)
  /-- reserved, 0x1C - 0x1D. -/
  | reserved1C (low : BitVec 1)
  /-- reserved, 0x1E. -/
  | reserved1E
  /-- reserved, 0x40 - 0x4F. -/
  | reserved40 (low : BitVec 4)
  /-- reserved, 0x88 - 0x8F. -/
  | reserved88 (low : BitVec 3)
  -- unlisted first bytes (R108; log 11)
  /-- unlisted, 0x06 - 0x07. -/
  | unlisted06 (low : BitVec 1)
  /-- unlisted, 0x20 - 0x23. -/
  | unlisted20 (low : BitVec 2)
  /-- unlisted, 0xC4 - 0xC7. -/
  | unlistedC4 (low : BitVec 2)
  /-- unlisted, 0xC8 - 0xCF. -/
  | unlistedC8 (low : BitVec 3)
  /-- unlisted, 0xD4 - 0xD7. -/
  | unlistedD4 (low : BitVec 2)
  /-- unlisted, 0xD8 - 0xDF. -/
  | unlistedD8 (low : BitVec 3)
  /-- unlisted, 0xE0 - 0xE1. -/
  | unlistedE0 (low : BitVec 1)
  /-- unlisted, 0xE2. -/
  | unlistedE2
  deriving DecidableEq, Repr

end Sys2Proof
end

