-- ==== Sys2Proof/WellFormed.lean ====
section
/-! DEFINITION. Which terms of `Instr` are instructions: every field is already as wide as its encoding, so the one
check is that an immediate form of a two-form mnemonic has `imm4` not 0 (30_encoding.md R96; the constraint
"imm4 != 0" of opcode_table.json). -/

namespace Sys2Proof

/-- The instruction has an encoding: `imm4` is 1 to 15 in format A2I (R96), and nothing else is asked
(R110: "Every bit pattern in the operand bytes of a listed instruction is legal"). -/
def Instr.wf : Instr → Bool
  | .nop => true
  | .int => true
  | .eni => true
  | .dei => true
  | .rst => true
  | .hlt => true
  | .cmp => true
  | .ret => true
  | .pus _ => true
  | .pop _ => true
  | .ljp _ => true
  | .jmp _ => true
  | .jiz _ => true
  | .jnz _ => true
  | .jlt _ => true
  | .jge _ => true
  | .jof _ => true
  | .jnf _ => true
  | .mov _ _ => true
  | .lod _ _ => true
  | .sto _ _ => true
  | .neg _ => true
  | .not _ => true
  | .and _ _ => true
  | .ior _ _ => true
  | .xor _ _ => true
  | .addR _ _ => true
  | .subR _ _ => true
  | .mulR _ _ => true
  | .divR _ _ => true
  | .addI imm4 _ _ => imm4 != 0#4
  | .subI imm4 _ _ => imm4 != 0#4
  | .mulI imm4 _ _ => imm4 != 0#4
  | .divI imm4 _ _ => imm4 != 0#4
  | .cal _ => true
  | .rcl _ => true
  | .car _ _ _ => true
  | .rcr _ _ _ => true
  | .irf _ => true
  | .rolR _ _ => true
  | .rorR _ _ => true
  | .shlR _ _ => true
  | .shrR _ _ => true
  | .rolI imm4 _ _ => imm4 != 0#4
  | .rorI imm4 _ _ => imm4 != 0#4
  | .shlI imm4 _ _ => imm4 != 0#4
  | .shrI imm4 _ _ => imm4 != 0#4
  | .cli _ _ _ _ => true
  | .jmi _ => true
  | .jzi _ => true
  | .jni _ => true
  | .jli _ => true
  | .jgi _ => true
  | .joi _ => true
  | .jui _ => true
  | .ldi _ _ _ => true
  | .sti _ _ _ => true
  | .lri _ _ _ _ => true
  | .sri _ _ _ _ => true
  | .mvi _ _ => true
  | .inc _ => true
  | .dec _ => true
  | .reserved0A _ => true
  | .reserved0C _ => true
  | .reserved18 _ => true
  | .reserved1C _ => true
  | .reserved1E => true
  | .reserved40 _ => true
  | .reserved88 _ => true
  | .unlisted06 _ => true
  | .unlisted20 _ => true
  | .unlistedC4 _ => true
  | .unlistedC8 _ => true
  | .unlistedD4 _ => true
  | .unlistedD8 _ => true
  | .unlistedE0 _ => true
  | .unlistedE2 => true

end Sys2Proof
end

