-- ==== Sys2Proof/Decode.lean ====
section
/-! DEFINITION. The decoder and, after it, the encoder (spec 30_encoding.md). The first byte decides everything but
the form of the eight two-form mnemonics, which B1[7:4] decides (R90, R95, R96, R110). -/

namespace Sys2Proof

/-! ## Fields -/

/-- The `w`-bit field of byte `b` whose lowest bit is bit `lo` (R6). -/
def field (b : Byte) (lo w : Nat) : BitVec w := b.extractLsb' lo w

/-- The register a 2-bit selector names: 00 AX, 01 BX, 10 CX, 11 SP (R91; 10_state.md R20). -/
def regOfCode (c : BitVec 2) : Reg :=
  match c.toNat with
  | 0 => .ax
  | 1 => .bx
  | 2 => .cx
  | _ => .sp

/-- The register selector in bits `lo + 1 : lo` of a byte (R91). -/
def regField (b : Byte) (lo : Nat) : Reg := regOfCode (field b lo 2)

/-- A 16-bit operand, big endian: `B1` is bits 15:8, `B2` is bits 7:0 (R101; 20_memory.md R62). -/
def operand16 (b1 b2 : Byte) : Word := b1 ++ b2

/-- The 12-bit offset of format RO: `B1[3:0] ++ B2` (R102). -/
def operand12 (b1 b2 : Byte) : BitVec 12 := field b1 0 4 ++ b2

/-! ## Lengths -/

/-- The number of bytes of the instruction that starts with `b0` (R90): 3 for LJP, CAL, RCL, CAR, RCR and MVI, 2 for
0xC0 - 0xC3, 0xE3 - 0xF3, and 1 for the rest of the listed bytes. A reserved or unlisted byte stands for no
instruction; the decoder takes the one byte it looks at (opcode_table.json, column length; log 11). -/
def lengthOf (b0 : Byte) : Nat :=
  let n := b0.toNat
  if n = 0x1F then 3
  else if 0xC0 ≤ n ∧ n ≤ 0xC3 then 2
  else if 0xD0 ≤ n ∧ n ≤ 0xD3 then 3
  else if 0xE3 ≤ n ∧ n ≤ 0xF3 then 2
  else if 0xF4 ≤ n ∧ n ≤ 0xF7 then 3
  else 1

/-! ## The opcode map (R105) -/

/-- The form rule of the two-form mnemonics: `B1[7:4] = 0` selects the register form (format A2R, R95), anything
else the immediate form (format A2I, R96). -/
def twoForm (b1 : Byte) (r : Reg → Reg → Instr) (i : BitVec 4 → Reg → BitVec 2 → Instr) : Instr :=
  if field b1 4 4 = 0#4 then r (regField b1 2) (regField b1 0)
  else i (field b1 4 4) (regField b1 2) (field b1 0 2)

/-- First bytes 0x00 - 0x03. -/
def decodeControl00 (b0 : Byte) : Instr :=
  match (field b0 0 2).toNat with
  | 0 => .nop
  | 1 => .int
  | 2 => .eni
  | _ => .dei

/-- First bytes 0x04 - 0x07. -/
def decodeControl04 (b0 : Byte) : Instr :=
  match (field b0 0 2).toNat with
  | 0 => .rst
  | 1 => .hlt
  | _ => .unlisted06 (field b0 0 1)

/-- First bytes 0x08 - 0x0B. -/
def decodeControl08 (b0 : Byte) : Instr :=
  match (field b0 0 2).toNat with
  | 0 => .cmp
  | 1 => .ret
  | _ => .reserved0A (field b0 0 1)

/-- First bytes 0x1C - 0x1F: LJP is 0x1F alone (90_conflicts.md C7). -/
def decodeGroup1C (b0 b1 b2 : Byte) : Instr :=
  match (field b0 0 2).toNat with
  | 2 => .reserved1E
  | 3 => .ljp (operand16 b1 b2)
  | _ => .reserved1C (field b0 0 1)

/-- First bytes 0xC0 - 0xC3: arithmetic. -/
def decodeArithmetic (b0 b1 : Byte) : Instr :=
  match (field b0 0 2).toNat with
  | 0 => twoForm b1 .addR .addI
  | 1 => twoForm b1 .subR .subI
  | 2 => twoForm b1 .mulR .mulI
  | _ => twoForm b1 .divR .divI

/-- First bytes 0xD0 - 0xD3: subroutine (CAR and RCR by R106; log 12). -/
def decodeSubroutine (b0 b1 b2 : Byte) : Instr :=
  match (field b0 0 2).toNat with
  | 0 => .cal (operand16 b1 b2)
  | 1 => .rcl (operand16 b1 b2)
  | 2 => .car (field b1 6 2) (regField b1 4) (operand12 b1 b2)
  | _ => .rcr (field b1 6 2) (regField b1 4) (operand12 b1 b2)

/-- First bytes 0xE0 - 0xE3: IRF is 0xE3 alone. -/
def decodeGroupE0 (b0 b1 : Byte) : Instr :=
  match (field b0 0 2).toNat with
  | 2 => .unlistedE2
  | 3 => .irf b1
  | _ => .unlistedE0 (field b0 0 1)

/-- First bytes 0xE4 - 0xE7: shifts. -/
def decodeShift (b0 b1 : Byte) : Instr :=
  match (field b0 0 2).toNat with
  | 0 => twoForm b1 .rolR .rolI
  | 1 => twoForm b1 .rorR .rorI
  | 2 => twoForm b1 .shlR .shlI
  | _ => twoForm b1 .shrR .shrI

/-- First bytes 0xE8 - 0xEB: CLI and the first three immediate jumps. -/
def decodeLocalE8 (b0 b1 : Byte) : Instr :=
  match (field b0 0 2).toNat with
  | 0 => .cli (b1.getLsbD 7) (b1.getLsbD 6) (b1.getLsbD 5) (field b1 0 5)
  | 1 => .jmi b1
  | 2 => .jzi b1
  | _ => .jni b1

/-- First bytes 0xEC - 0xEF: the other immediate jumps. -/
def decodeLocalEC (b0 b1 : Byte) : Instr :=
  match (field b0 0 2).toNat with
  | 0 => .jli b1
  | 1 => .jgi b1
  | 2 => .joi b1
  | _ => .jui b1

/-- First bytes 0xF0 - 0xF3: indexed memory. -/
def decodeIndexed (b0 b1 : Byte) : Instr :=
  match (field b0 0 2).toNat with
  | 0 => .ldi (field b1 4 4) (regField b1 2) (regField b1 0)
  | 1 => .sti (field b1 4 4) (regField b1 2) (regField b1 0)
  | 2 => .lri (field b1 6 2) (regField b1 4) (regField b1 2) (regField b1 0)
  | _ => .sri (field b1 6 2) (regField b1 4) (regField b1 2) (regField b1 0)

/-- The instruction whose bytes are `b0`, `b1`, `b2`, where bytes past its length are not looked at. Total: every
first byte is in exactly one row of the opcode map (R105, R110). The match is on bits 7:2 of the first byte. -/
def decodeBytes (b0 b1 b2 : Byte) : Instr :=
  match (field b0 2 6).toNat with
  | 0x00 => decodeControl00 b0
  | 0x01 => decodeControl04 b0
  | 0x02 => decodeControl08 b0
  | 0x03 => .reserved0C (field b0 0 2)
  | 0x04 => .pus (regField b0 0)
  | 0x05 => .pop (regField b0 0)
  | 0x06 => .reserved18 (field b0 0 2)
  | 0x07 => decodeGroup1C b0 b1 b2
  | 0x08 => .unlisted20 (field b0 0 2)
  | 0x09 => .jmp (regField b0 0)
  | 0x0A => .jiz (regField b0 0)
  | 0x0B => .jnz (regField b0 0)
  | 0x0C => .jlt (regField b0 0)
  | 0x0D => .jge (regField b0 0)
  | 0x0E => .jof (regField b0 0)
  | 0x0F => .jnf (regField b0 0)
  | 0x10 | 0x11 | 0x12 | 0x13 => .reserved40 (field b0 0 4)
  | 0x14 | 0x15 | 0x16 | 0x17 => .mov (regField b0 2) (regField b0 0)
  | 0x18 | 0x19 | 0x1A | 0x1B => .lod (regField b0 2) (regField b0 0)
  | 0x1C | 0x1D | 0x1E | 0x1F => .sto (regField b0 2) (regField b0 0)
  | 0x20 => .neg (regField b0 0)
  | 0x21 => .not (regField b0 0)
  | 0x22 | 0x23 => .reserved88 (field b0 0 3)
  | 0x24 | 0x25 | 0x26 | 0x27 => .and (regField b0 2) (regField b0 0)
  | 0x28 | 0x29 | 0x2A | 0x2B => .ior (regField b0 2) (regField b0 0)
  | 0x2C | 0x2D | 0x2E | 0x2F => .xor (regField b0 2) (regField b0 0)
  | 0x30 => decodeArithmetic b0 b1
  | 0x31 => .unlistedC4 (field b0 0 2)
  | 0x32 | 0x33 => .unlistedC8 (field b0 0 3)
  | 0x34 => decodeSubroutine b0 b1 b2
  | 0x35 => .unlistedD4 (field b0 0 2)
  | 0x36 | 0x37 => .unlistedD8 (field b0 0 3)
  | 0x38 => decodeGroupE0 b0 b1
  | 0x39 => decodeShift b0 b1
  | 0x3A => decodeLocalE8 b0 b1
  | 0x3B => decodeLocalEC b0 b1
  | 0x3C => decodeIndexed b0 b1
  | 0x3D => .mvi (regField b0 0) (operand16 b1 b2)
  | 0x3E => .inc (regField b0 0)
  | _ => .dec (regField b0 0)

/-- Why a list of bytes does not start with an instruction. -/
inductive DecodeError where
  /-- There is no first byte. Safe: nothing is decoded. -/
  | noBytes
  /-- The first byte announces `need` bytes and only `got` are there. Safe: nothing is decoded. -/
  | truncated (need got : Nat)
  deriving DecidableEq, Repr

/-- Decode the instruction at the head of a list of bytes, with the bytes left over (R90, R110). -/
def decode (bytes : List Byte) : Except DecodeError (Instr × List Byte) :=
  match bytes with
  | [] => .error .noBytes
  | b0 :: rest =>
    if rest.length + 1 < lengthOf b0 then .error (.truncated (lengthOf b0) (rest.length + 1))
    else .ok (decodeBytes b0 (rest.getD 0 0#8) (rest.getD 1 0#8), rest.drop (lengthOf b0 - 1))

/-- The bytes of an opcode-table word of `nbits` bits, padded with zero bytes to the longest instruction. The table
reads an instruction as one big-endian number: the first byte is the most significant (30_encoding.md, "How to
read opcode_table.json"; log 15). -/
def tableBytes (nbits w : Nat) : Byte × Byte × Byte :=
  let n := (nbits + 7) / 8
  let byte (k : Nat) : Byte := if k < n then BitVec.ofNat 8 (w >>> (8 * (n - 1 - k))) else 0#8
  (byte 0, byte 1, byte 2)

/-- The instruction the decoder reads from an opcode-table word (log 15). -/
def decodeTableWord (nbits w : Nat) : Option Instr :=
  match tableBytes nbits w with
  | (b0, b1, b2) =>
    match decode [b0, b1, b2] with
    | .ok (i, _) => some i
    | .error _ => none

/-! ## The encoder -/

/-- The 2-bit selector of a register (R91). -/
def Reg.code : Reg → BitVec 2
  | .ax => 0b00#2
  | .bx => 0b01#2
  | .cx => 0b10#2
  | .sp => 0b11#2

/-- Format R: a 6-bit opcode and a selector (R93). -/
def encR (op : BitVec 6) (r : Reg) : List Byte := [op ++ r.code]

/-- Format RR: a 4-bit opcode and two selectors (R94). -/
def encRR (op : BitVec 4) (rM rL : Reg) : List Byte := [op ++ rM.code ++ rL.code]

/-- Format A2R: B1 is 0000, rM, rL (R95). -/
def encA2R (op : Byte) (rM rL : Reg) : List Byte := [op, 0b0000#4 ++ rM.code ++ rL.code]

/-- Format A2I: B1 is imm4, r, two ignored bits (R96). -/
def encA2I (op : Byte) (imm4 : BitVec 4) (r : Reg) (ign : BitVec 2) : List Byte := [op, imm4 ++ r.code ++ ign]

/-- Format I8: B1 is the immediate (R97). -/
def encI8 (op imm8 : Byte) : List Byte := [op, imm8]

/-- Format M3: B1 is the mask bits for Z, C, S and five ignored bits (R98). -/
def encM3 (op : Byte) (mZ mC mS : Bool) (ign : BitVec 5) : List Byte :=
  [op, BitVec.ofBool mZ ++ BitVec.ofBool mC ++ BitVec.ofBool mS ++ ign]

/-- Format X4: B1 is imm4, rM, rL (R99). -/
def encX4 (op : Byte) (imm4 : BitVec 4) (rM rL : Reg) : List Byte := [op, imm4 ++ rM.code ++ rL.code]

/-- Format X2: B1 is imm2, rM, rMid, rL (R100). -/
def encX2 (op : Byte) (imm2 : BitVec 2) (rM rMid rL : Reg) : List Byte :=
  [op, imm2 ++ rM.code ++ rMid.code ++ rL.code]

/-- Format A16: the address, high byte first (R101). -/
def encA16 (op : Byte) (addr : Word) : List Byte := [op, addr.extractLsb' 8 8, addr.extractLsb' 0 8]

/-- Format RO: B1 is two ignored bits, r and the offset's high digit, B2 the rest of the offset (R102). -/
def encRO (op : Byte) (ign : BitVec 2) (r : Reg) (off : BitVec 12) : List Byte :=
  [op, ign ++ r.code ++ off.extractLsb' 8 4, off.extractLsb' 0 8]

/-- Format RI16: a 6-bit opcode and a selector, then the immediate, high byte first (R103). -/
def encRI16 (op : BitVec 6) (r : Reg) (imm : Word) : List Byte :=
  [op ++ r.code, imm.extractLsb' 8 8, imm.extractLsb' 0 8]

/-- The bytes of an instruction, in address order (R92 to R105, the "fixed bits" column of R105). -/
def encode : Instr → List Byte
  | .nop => [0b00000000#8]
  | .int => [0b00000001#8]
  | .eni => [0b00000010#8]
  | .dei => [0b00000011#8]
  | .rst => [0b00000100#8]
  | .hlt => [0b00000101#8]
  | .cmp => [0b00001000#8]
  | .ret => [0b00001001#8]
  | .pus r => encR 0b000100#6 r
  | .pop r => encR 0b000101#6 r
  | .ljp addr16 => encA16 0b00011111#8 addr16
  | .jmp r => encR 0b001001#6 r
  | .jiz r => encR 0b001010#6 r
  | .jnz r => encR 0b001011#6 r
  | .jlt r => encR 0b001100#6 r
  | .jge r => encR 0b001101#6 r
  | .jof r => encR 0b001110#6 r
  | .jnf r => encR 0b001111#6 r
  | .mov rM rL => encRR 0b0101#4 rM rL
  | .lod rM rL => encRR 0b0110#4 rM rL
  | .sto rM rL => encRR 0b0111#4 rM rL
  | .neg r => encR 0b100000#6 r
  | .not r => encR 0b100001#6 r
  | .and rM rL => encRR 0b1001#4 rM rL
  | .ior rM rL => encRR 0b1010#4 rM rL
  | .xor rM rL => encRR 0b1011#4 rM rL
  | .addR rM rL => encA2R 0b11000000#8 rM rL
  | .subR rM rL => encA2R 0b11000001#8 rM rL
  | .mulR rM rL => encA2R 0b11000010#8 rM rL
  | .divR rM rL => encA2R 0b11000011#8 rM rL
  | .addI imm4 r ign => encA2I 0b11000000#8 imm4 r ign
  | .subI imm4 r ign => encA2I 0b11000001#8 imm4 r ign
  | .mulI imm4 r ign => encA2I 0b11000010#8 imm4 r ign
  | .divI imm4 r ign => encA2I 0b11000011#8 imm4 r ign
  | .cal addr16 => encA16 0b11010000#8 addr16
  | .rcl addr16 => encA16 0b11010001#8 addr16
  | .car ign r off12 => encRO 0b11010010#8 ign r off12
  | .rcr ign r off12 => encRO 0b11010011#8 ign r off12
  | .irf mask8 => encI8 0b11100011#8 mask8
  | .rolR rM rL => encA2R 0b11100100#8 rM rL
  | .rorR rM rL => encA2R 0b11100101#8 rM rL
  | .shlR rM rL => encA2R 0b11100110#8 rM rL
  | .shrR rM rL => encA2R 0b11100111#8 rM rL
  | .rolI imm4 r ign => encA2I 0b11100100#8 imm4 r ign
  | .rorI imm4 r ign => encA2I 0b11100101#8 imm4 r ign
  | .shlI imm4 r ign => encA2I 0b11100110#8 imm4 r ign
  | .shrI imm4 r ign => encA2I 0b11100111#8 imm4 r ign
  | .cli mZ mC mS ign => encM3 0b11101000#8 mZ mC mS ign
  | .jmi off8 => encI8 0b11101001#8 off8
  | .jzi off8 => encI8 0b11101010#8 off8
  | .jni off8 => encI8 0b11101011#8 off8
  | .jli off8 => encI8 0b11101100#8 off8
  | .jgi off8 => encI8 0b11101101#8 off8
  | .joi off8 => encI8 0b11101110#8 off8
  | .jui off8 => encI8 0b11101111#8 off8
  | .ldi imm4 rM rL => encX4 0b11110000#8 imm4 rM rL
  | .sti imm4 rM rL => encX4 0b11110001#8 imm4 rM rL
  | .lri imm2 rM rMid rL => encX2 0b11110010#8 imm2 rM rMid rL
  | .sri imm2 rM rMid rL => encX2 0b11110011#8 imm2 rM rMid rL
  | .mvi r imm16 => encRI16 0b111101#6 r imm16
  | .inc r => encR 0b111110#6 r
  | .dec r => encR 0b111111#6 r
  | .reserved0A low => [0b0000101#7 ++ low]
  | .reserved0C low => [0b000011#6 ++ low]
  | .reserved18 low => [0b000110#6 ++ low]
  | .reserved1C low => [0b0001110#7 ++ low]
  | .reserved1E => [0b00011110#8]
  | .reserved40 low => [0b0100#4 ++ low]
  | .reserved88 low => [0b10001#5 ++ low]
  | .unlisted06 low => [0b0000011#7 ++ low]
  | .unlisted20 low => [0b001000#6 ++ low]
  | .unlistedC4 low => [0b110001#6 ++ low]
  | .unlistedC8 low => [0b11001#5 ++ low]
  | .unlistedD4 low => [0b110101#6 ++ low]
  | .unlistedD8 low => [0b11011#5 ++ low]
  | .unlistedE0 low => [0b1110000#7 ++ low]
  | .unlistedE2 => [0b11100010#8]

/-- The length of an instruction in bytes, by its format (R92 to R103): what `npc` adds to `pc` (00_scope.md R9). -/
def Instr.length (i : Instr) : Nat := (encode i).length

end Sys2Proof
end

