-- ==== Sys2Proof/Config.lean ====
section
/-! DEFINITION. The parameters of the machine (spec 00_scope.md R5, 92_eei_decisions.md "Parameters") and the
free values. A constant without a body is OPEN: no proof can learn its value, so a claim holds whatever it is. -/

namespace Sys2Proof

/-! ## The parameters a platform gives as data: `RESET_PC` and `MEM_MAP` -/

/-- What stands behind an address: "which addresses are RAM, ROM, device" (00_scope.md R5; log 17). -/
inductive MemKind where
  /-- Readable and writable, without side effects (20_memory.md R68). -/
  | ram
  /-- Readable; the spec says nothing of a write. -/
  | rom
  /-- The spec says nothing of a read or a write. -/
  | device
  deriving DecidableEq, Repr

/-- The addresses `first` to `last`, both included, and what stands behind them. -/
structure Region where
  /-- The lowest address. -/
  first : Word
  /-- The highest address. -/
  last : Word
  /-- What stands there. -/
  kind : MemKind
  deriving DecidableEq, Repr

/-- The parameters of a platform that the model takes as data (00_scope.md R5). -/
structure Platform where
  /-- `RESET_PC`: the address of the first instruction after reset (10_state.md R42; log 7). -/
  resetPc : Word
  /-- `MEM_MAP`: an address in no region is RAM, one in several is what the first says (20_memory.md R68; log 17). -/
  memMap : List Region
  deriving DecidableEq, Repr

/-- The spec's defaults: `RESET_PC` 0x0000 (R42), all RAM (R68). -/
def Platform.default : Platform where
  resetPc := 0x0000#16
  memMap := []

end Sys2Proof

/-! ## The parameters without a default, and the free values -/

namespace Sys2Proof.Config

/-- `INT_VECTOR`, the address of the one interrupt handler: OPEN, no default (60_exceptions.md R306; safe: log 6). -/
opaque intVector : Word

/-- `INITIAL_MEMORY` where the loaded image says nothing: what a read of a byte that holds no value draws.
A function of the address, so that reads are idempotent (20_memory.md R67; 70_reset_and_hazards.md R352; safe: log 5). -/
opaque initialMemory : Word → Byte

/-- `DIV0`, first output: the value DIV leaves in the destination when the divisor is 0, a function of the
dividend (44_arithmetic.md R196; safe: log 10). -/
opaque div0Result : Word → Word

/-- `DIV0`, second output: the Z flag after a division by 0 (R196; safe: log 10). -/
opaque div0Z : Word → Bool

/-- `DIV0`, third output: the C flag after a division by 0 (R196; safe: log 10). -/
opaque div0C : Word → Bool

/-- `DIV0`, fourth output: the S flag after a division by 0 (R196; safe: log 10). -/
opaque div0S : Word → Bool

/-- `UNSPEC(16)`: the n-th 16-bit draw (00_scope.md R9; 70_reset_and_hazards.md R351; safe: log 4). -/
opaque freeWord : Nat → Word

/-- `UNSPEC(8)`: the n-th 8-bit draw (R9, R351; safe: log 4). -/
opaque freeByte : Nat → Byte

/-- `UNSPEC(1)`: the n-th one-bit draw (R9, R351; safe: log 4). -/
opaque freeBit : Nat → Bool

end Sys2Proof.Config
end

