-- ==== Sys2Proof/Machine/State.lean ====
section
/-! DEFINITION. The state of JakVM (spec 10_state.md, 20_memory.md R60), the reasons a step can stop, and the state
right after reset. -/

namespace Sys2Proof.Machine

/-- Memory: the bytes that hold a value, by address, addresses strictly rising. An address that is not listed holds
no value (70_reset_and_hazards.md R352; log 5). The form is `Memory.wf` in Machine/Ops.lean. -/
abbrev Memory := List Host.Cell

/-- IS, the interrupt state, 104 bits and IS.IE (10_state.md R35, R36). -/
structure IntState where
  /-- IS.AX. -/
  ax : Word
  /-- IS.BX. -/
  bx : Word
  /-- IS.CX. -/
  cx : Word
  /-- IS.SP. -/
  sp : Word
  /-- IS.PC: the address of the next instruction to execute at the entry. -/
  pc : Word
  /-- IS.RS. -/
  rs : Byte
  /-- IS.RF: filled at entry, not used by RET (90_conflicts.md C3). -/
  rf : Byte
  /-- The 8 bits the source labels "return address": no rule gives them a meaning (90_conflicts.md C4; log 14). -/
  retAddr : Byte
  /-- IS.IE, the spec's addition (R36). -/
  ie : Bool
  deriving DecidableEq, Repr

/-- The whole state of the machine (10_state.md, table at its head), and the model's own fields `events`, `draws`. -/
structure State where
  /-- AX, selector 00 (R20). -/
  ax : Word
  /-- BX, selector 01 (R20). -/
  bx : Word
  /-- CX, selector 10 (R20). -/
  cx : Word
  /-- SP, selector 11 (R20). -/
  sp : Word
  /-- PC: between passes, the address of the next instruction; while one executes, of its first byte (R24, R27). -/
  pc : Word
  /-- RS, the status register: Z, C, S in bits 7, 6, 5 (R28). -/
  rs : Byte
  /-- RF, the interrupt flags: Reset, External interrupt, Buffer swapped in bits 7, 6, 5 (R32). -/
  rf : Byte
  /-- IS, the interrupt state (R35). -/
  intState : IntState
  /-- IE, interrupt enable (R37). -/
  ie : Bool
  /-- HALTED, the sleeping state of HLT (R38). -/
  halted : Bool
  /-- Memory (R40; 20_memory.md R60). -/
  mem : Memory
  /-- The parameters `RESET_PC` and `MEM_MAP` of the platform the machine stands on; no step changes them (00_scope.md R5;
  logs 7, 17). -/
  platform : Platform
  /-- The model's own: EVENTS, what the environment raises at the boundaries to come, the next one first; past the end
  of the list it raises nothing (60_exceptions.md R302; log 8). -/
  events : List Byte
  /-- The model's own: how many `UNSPEC` draws were taken (00_scope.md R9; log 4). -/
  draws : Nat
  deriving DecidableEq, Repr

/-- Why a step has no next state. None of these is an exception of the machine, which has none (R300). -/
inductive Fault where
  /-- Raised by the 37 reserved first bytes: `FAULT(reserved_opcode)` (30_encoding.md R107). Safe: the model stops where
  the spec gives no behaviour. -/
  | reservedOpcode
  /-- Raised by the 33 unlisted first bytes: `FAULT(unlisted_opcode)` (R108). Safe, for the same reason. -/
  | unlistedOpcode
  /-- The stuck state, raised by the instruction cycle and by no instruction: HALTED = 1, RF = 0x00 and no event to come,
  so "no step is enabled" (10_state.md R27). It is the normal end of a run (70_reset_and_hazards.md R356). Safe: no next
  state is claimed (log 9). -/
  | asleep
  deriving DecidableEq, Repr

/-- Why a step is refused. -/
inductive Refusal where
  /-- The step reads, writes or fetches a byte at `address`, behind which `MEM_MAP` puts a device: the spec does not say what
  a device does (93_implementation_defined.md U13). Never on the default map. Safe: the model stops (log 17). -/
  | deviceAccess (address : Word)
  /-- The step writes a byte at `address`, behind which `MEM_MAP` puts a ROM: the spec does not say what that does (U13). Never
  on the default map. Safe: the model stops (log 17). -/
  | romWrite (address : Word)
  /-- The instruction has no meaning in the model; raised by exec's refused arms only, and there is none left. Safe. -/
  | notModelled (mnemonic : String)
  deriving DecidableEq, Repr

/-- IS right after reset: the spec gives no value (R41); DESIGN CHOICE all zero, unsafe (log 3, log 14). -/
def IntState.reset : IntState where
  ax := 0#16
  bx := 0#16
  cx := 0#16
  sp := 0#16
  pc := 0#16
  rs := 0#8
  rf := 0#8
  retAddr := 0#8
  ie := false

/-- The machine of a platform right after power-on reset (10_state.md R41; 70_reset_and_hazards.md R351): PC is `RESET_PC`, IE and
HALTED are 0, bits 4:0 of RS and RF are 0. The registers and flags the spec leaves unspecified are zero: DESIGN
CHOICE, unsafe (logs 1, 2, 3). No byte of memory holds a value (R352; log 5); a program is loaded from outside (log
16). The environment's schedule is empty (log 8). -/
def State.resetOn (p : Platform) : State where
  ax := 0#16
  bx := 0#16
  cx := 0#16
  sp := 0#16
  pc := p.resetPc
  rs := 0#8
  rf := 0#8
  intState := IntState.reset
  ie := false
  halted := false
  mem := []
  platform := p
  events := []
  draws := 0

/-- The machine right after power-on reset on the spec's default platform: `RESET_PC` is 0x0000 and all memory is RAM
(R42, 20_memory.md R68; logs 7, 17). -/
def State.reset : State := State.resetOn Platform.default

end Sys2Proof.Machine
end

