-- ==== Sys2Proof/Machine/Ops.lean ====
section
/-! DEFINITION. The named operations over registers and memory, the stack, interrupt entry and return, the reset
sequence (spec 00_scope.md R9, 20_memory.md, 60_exceptions.md R305, R308, 70_reset_and_hazards.md R351). -/

namespace Sys2Proof.Machine

/-! ## Memory as a list of cells -/

/-- Every address of the list is at least `lo`, they rise strictly, and each is below 2^16. -/
def Memory.risesFrom : Nat → Memory → Bool
  | _, [] => true
  | lo, (k, _) :: m => decide (lo ≤ k) && decide (k < 65536) && Memory.risesFrom (k + 1) m

/-- The canonical form: addresses of the address space (20_memory.md R60), strictly rising. An unlisted address holds
no value, so no entry can equal what an unlisted address holds (log 5). -/
def Memory.wf (m : Memory) : Bool := Memory.risesFrom 0 m

/-- The value a byte holds, if it holds one. -/
def Memory.read? : Memory → Nat → Option Byte
  | [], _ => none
  | (k, v) :: m, a => if k = a then some v else Memory.read? m a

/-- Store one byte, keeping the canonical form. -/
def Memory.write : Memory → Nat → Byte → Memory
  | [], a, v => [(a, v)]
  | (k, w) :: m, a, v =>
    if a < k then (a, v) :: (k, w) :: m
    else if a = k then (a, v) :: m
    else (k, w) :: Memory.write m a v

/-- `M[a]`: the last value written or loaded, and where there is none the draw `INITIAL_MEMORY` makes
(20_memory.md R63, R67, R70; 70_reset_and_hazards.md R352; log 5). What an access to a device does is not here: it is
refused (log 17). -/
def State.byteAt (s : State) (a : Word) : Byte :=
  (Memory.read? s.mem a.toNat).getD (Config.initialMemory a)

/-- `MemWrite(a, 1, v)` (R63). -/
def State.writeByte (a : Word) (v : Byte) (s : State) : State :=
  { s with mem := Memory.write s.mem a.toNat v }

/-! ## The address map `MEM_MAP` (20_memory.md R68; 00_scope.md R5; log 17) -/

/-- The region holds the address. -/
def Region.holds (r : Region) (a : Word) : Bool := decide (r.first.toNat ≤ a.toNat) && decide (a.toNat ≤ r.last.toNat)

/-- What a map puts behind an address: the first region that holds it, RAM where none does. -/
def kindIn : List Region → Word → MemKind
  | [], _ => .ram
  | r :: rs, a => if Region.holds r a then r.kind else kindIn rs a

/-- What stands behind an address. -/
def State.kindAt (s : State) (a : Word) : MemKind := kindIn s.platform.memMap a

/-- Why a byte cannot be read or fetched, if it cannot: it is a device's (93_implementation_defined.md U13). -/
def State.readRefusal (s : State) (a : Word) : Option Refusal :=
  match s.kindAt a with
  | .ram => none
  | .rom => none
  | .device => some (.deviceAccess a)

/-- Why a byte cannot be written, if it cannot: it is a ROM's or a device's (U13). -/
def State.writeRefusal (s : State) (a : Word) : Option Refusal :=
  match s.kindAt a with
  | .ram => none
  | .rom => some (.romWrite a)
  | .device => some (.deviceAccess a)

/-- Why `MemRead(a, 2)` cannot be done, if it cannot. -/
def State.read16Refusal (s : State) (a : Word) : Option Refusal := (s.readRefusal a).or (s.readRefusal (a + 1#16))

/-- Why `MemWrite(a, 2, v)` cannot be done, if it cannot. -/
def State.write16Refusal (s : State) (a : Word) : Option Refusal := (s.writeRefusal a).or (s.writeRefusal (a + 1#16))

/-- The next state, unless an access of the step is refused. -/
def nextUnless (r : Option Refusal) (t : State) : Host.Outcome State Fault Refusal :=
  match r with
  | none => .next t
  | some why => .refused why

/-! ## 16-bit accesses -/

/-- `MemRead(a, 2)`: big endian, the second byte at `a + 1` modulo 2^16 (R62, R63, R66). -/
def State.read16 (s : State) (a : Word) : Word := s.byteAt a ++ s.byteAt (a + 1#16)

/-- `MemWrite(a, 2, v)`: bits 15:8 at `a`, then bits 7:0 at `a + 1` modulo 2^16 (R62, R63, R66). -/
def State.write16 (a : Word) (v : Word) (s : State) : State :=
  (s.writeByte a (v.extractLsb' 8 8)).writeByte (a + 1#16) (v.extractLsb' 0 8)

/-! ## Registers -/

/-- `x[r]` (00_scope.md R9; 10_state.md R20, R21). -/
def State.reg (s : State) : Reg → Word
  | .ax => s.ax
  | .bx => s.bx
  | .cx => s.cx
  | .sp => s.sp

/-- `x[r] <- v` (R9). -/
def State.setReg (r : Reg) (v : Word) (s : State) : State :=
  match r with
  | .ax => { s with ax := v }
  | .bx => { s with bx := v }
  | .cx => { s with cx := v }
  | .sp => { s with sp := v }

/-- `npc` of an instruction of `len` bytes (R9; 10_state.md R24, R25). -/
def State.npc (len : Nat) (s : State) : Word := s.pc + BitVec.ofNat 16 len

/-- `pc <- target` (R9). -/
def State.jump (target : Word) (s : State) : State := { s with pc := target }

/-- `pc <- npc` (R9, R25). -/
def State.advance (len : Nat) (s : State) : State := { s with pc := s.npc len }

/-! ## The stack (41_stack_and_jumps.md R150, R151) -/

/-- `Push16(v)`: store at SP, then SP goes down by 2 (R150). -/
def State.push16 (v : Word) (s : State) : State :=
  let t := s.write16 s.sp v
  { t with sp := t.sp - 2#16 }

/-- The first half of `Pop16()`: SP goes up by 2 (R151). -/
def State.popSp (s : State) : State := { s with sp := s.sp + 2#16 }

/-- The second half of `Pop16()`, on the state after the first: the value at SP (R151). -/
def State.topOfStack (s : State) : Word := s.read16 s.sp

/-! ## RS and RF: bits 4:0 of both are always 0 (10_state.md R28, R32; log 19) -/

/-- The RS byte that holds the flags Z, C, S (R28). -/
def rsByte (z c sg : Bool) : Byte := BitVec.ofBool z ++ BitVec.ofBool c ++ BitVec.ofBool sg ++ 0b00000#5

/-- `RS <- v`, the one write of RS as a whole: bits 7:5 are stored, bits 4:0 stay 0 (R28). -/
def State.writeRs (v : Byte) (s : State) : State :=
  { s with rs := rsByte (v.getLsbD 7) (v.getLsbD 6) (v.getLsbD 5) }

/-- The environment raises flags: `RF <- RF | e`, with `e` confined to bits 7:5 (60_exceptions.md R302). -/
def State.raiseFlags (e : Byte) (s : State) : State := { s with rf := s.rf ||| (e &&& 0xE0#8) }

/-- `RF <- 0x00` (10_state.md R33). -/
def State.clearRf (s : State) : State := { s with rf := 0#8 }

/-! ## Interrupt entry and return -/

/-- Where interrupt entry sends control: `INT_VECTOR` (60_exceptions.md R306; log 6). -/
def interruptVector : Word := Config.intVector

/-- `interrupt_entry(saved_pc)`, one indivisible step: IS takes all registers, RS, RF and IE, then IE and HALTED are
cleared and control goes to the handler. The general registers, RS, RF and memory keep their values, and the 8
"return address" bits of IS are not written (R305; 10_state.md R36; log 14). -/
def State.interruptEntry (savedPc : Word) (s : State) : State :=
  { s with
    intState :=
      { s.intState with
        ax := s.ax, bx := s.bx, cx := s.cx, sp := s.sp, pc := savedPc, rs := s.rs, rf := s.rf, ie := s.ie }
    ie := false
    halted := false
    pc := interruptVector }

/-- RET, one indivisible step: the registers, RS, IE and PC come back from IS, RF is cleared, IS keeps its contents
(R308). -/
def State.returnFromInterrupt (s : State) : State :=
  let i := s.intState
  let t := s.writeRs i.rs
  { t with ax := i.ax, bx := i.bx, cx := i.cx, sp := i.sp, ie := i.ie, rf := 0#8, pc := i.pc }

/-! ## Reset -/

/-- How many numbers of the draw counter one reset uses up. -/
def drawsPerReset : Nat := 9

/-- IS after a reset: `UNSPEC` in every field (70_reset_and_hazards.md R351; log 4). -/
def drawIntState (n : Nat) : IntState where
  ax := Config.freeWord (n + 4)
  bx := Config.freeWord (n + 5)
  cx := Config.freeWord (n + 6)
  sp := Config.freeWord (n + 7)
  pc := Config.freeWord (n + 8)
  rs := Config.freeByte (n + 2)
  rf := Config.freeByte (n + 3)
  retAddr := Config.freeByte (n + 4)
  ie := Config.freeBit n

/-- `reset()` (R351): PC, IE and HALTED get their values, the general registers, RS[7:5], RF[7:5] and IS are draws,
bits 4:0 of RS and RF are 0, memory is unchanged. The platform and the
environment's schedule are no part of the core and stay (logs 4, 7). -/
def State.resetSequence (s : State) : State :=
  let n := s.draws
  let t := s.writeRs (Config.freeByte n)
  { t with
    ax := Config.freeWord n
    bx := Config.freeWord (n + 1)
    cx := Config.freeWord (n + 2)
    sp := Config.freeWord (n + 3)
    rf := Config.freeByte (n + 1) &&& 0xE0#8
    intState := drawIntState n
    ie := false
    halted := false
    pc := s.platform.resetPc
    draws := n + drawsPerReset }

end Sys2Proof.Machine
end

