-- ==== Sys2Proof/Machine/Flags.lean ====
section
/-! DEFINITION. The flags of RS, and the results and flag conditions of the computing instructions (spec 10_state.md
R29, R31; 43_bitwise.md; 44_arithmetic.md; 46_irf_and_shift.md; 49_immediate_and_increment.md). -/

namespace Sys2Proof.Machine

/-! ## The flags -/

/-- RS.Z, bit 7 (R28). -/
def State.flagZ (s : State) : Bool := s.rs.getLsbD 7

/-- RS.C, bit 6 (R28). -/
def State.flagC (s : State) : Bool := s.rs.getLsbD 6

/-- RS.S, bit 5 (R28). -/
def State.flagS (s : State) : Bool := s.rs.getLsbD 5

/-- Assign the three flags (R29: a flag write is an assignment). -/
def State.setFlags (z c sg : Bool) (s : State) : State := { s with rs := rsByte z c sg }

/-- Z of a 16-bit result (R29; 00_scope.md R9 `setZS`). -/
def resultZ (v : Word) : Bool := v == 0#16

/-- S of a 16-bit result: its bit 15 (R29, R195). -/
def resultS (v : Word) : Bool := v.getLsbD 15

/-- `setZS(v)` and C kept (R9; the flags of the bitwise family, R185). -/
def State.setZS (v : Word) (s : State) : State := s.setFlags (resultZ v) s.flagC (resultS v)

/-- `setZS(v)` and `RS.C <- c` (the flags of the arithmetic family, R191 to R194). -/
def State.setZCS (v : Word) (c : Bool) (s : State) : State := s.setFlags (resultZ v) c (resultS v)

/-- `RS.Z <- z`, C and S kept (CMP, IRF: R136, R220). -/
def State.setZ (z : Bool) (s : State) : State := s.setFlags z s.flagC s.flagS

/-- Clear the flags a mask selects (R240). -/
def State.clearFlags (mZ mC mS : Bool) (s : State) : State :=
  s.setFlags (s.flagZ && !mZ) (s.flagC && !mC) (s.flagS && !mS)

/-! ## Arithmetic (R191 to R195) -/

/-- ADD: bits 15:0 of the 17-bit sum (R191). -/
def addResult (a b : Word) : Word := BitVec.ofNat 16 (a.toNat + b.toNat)

/-- ADD: bit 16 of the 17-bit sum (R191). -/
def addCarry (a b : Word) : Bool := (a.toNat + b.toNat).testBit 16

/-- SUB: the difference modulo 2^16 (R192). -/
def subResult (a b : Word) : Word := BitVec.ofInt 16 ((a.toNat : Int) - (b.toNat : Int))

/-- SUB: the borrow, unsigned b greater than unsigned a (R192). -/
def subBorrow (a b : Word) : Bool := decide (a.toNat < b.toNat)

/-- MUL: bits 15:0 of the 32-bit product (R193). -/
def mulResult (a b : Word) : Word := BitVec.ofNat 16 (a.toNat * b.toNat)

/-- MUL: bits 31:16 of the product are not all 0 (R193). -/
def mulOverflow (a b : Word) : Bool := (a.toNat * b.toNat) / 65536 != 0

/-- DIV with a divisor that is not 0: the unsigned quotient, rounded towards zero (R194). -/
def divResult (a b : Word) : Word := BitVec.ofNat 16 (a.toNat / b.toNat)

/-! ## Bitwise (R180 to R184) -/

/-- NEG: `(0 - a) mod 2^16` (R180). -/
def negResult (a : Word) : Word := BitVec.ofInt 16 (0 - (a.toNat : Int))

/-! ## Shifts (R221 to R225); the count `n` is 0 to 15 -/

/-- ROL: the 16 bits rotated left (R222). -/
def rolResult (a : Word) (n : Nat) : Word := if n = 0 then a else (a <<< n) ||| (a >>> (16 - n))

/-- ROR: the 16 bits rotated right (R223). -/
def rorResult (a : Word) (n : Nat) : Word := if n = 0 then a else (a >>> n) ||| (a <<< (16 - n))

/-- SHL: zeros enter at bit 0 (R224). -/
def shlResult (a : Word) (n : Nat) : Word := a <<< n

/-- SHR: zeros enter at bit 15, a logical shift (R225). -/
def shrResult (a : Word) (n : Nat) : Word := a >>> n

/-- ROL: the last bit that went around is bit 0 of the result (R222). -/
def rolOut (a : Word) (n : Nat) : Bool := (rolResult a n).getLsbD 0

/-- ROR: the last bit that went around is bit 15 of the result (R223). -/
def rorOut (a : Word) (n : Nat) : Bool := (rorResult a n).getLsbD 15

/-- SHL: the last bit shifted out, `a[16 - n]` (R224). -/
def shlOut (a : Word) (n : Nat) : Bool := a.getLsbD (16 - n)

/-- SHR: the last bit shifted out, `a[n - 1]` (R225). -/
def shrOut (a : Word) (n : Nat) : Bool := a.getLsbD (n - 1)

/-- C after a shift or rotate: unchanged when the count is 0, else the last bit moved out (R221). -/
def State.shiftC (n : Nat) (out : Bool) (s : State) : Bool := if n = 0 then s.flagC else out

end Sys2Proof.Machine
end

