-- ==== Sys2Proof/Machine/Operands.lean ====
section
/-! DEFINITION. Operand forms (spec 30_encoding.md R104; 44_arithmetic.md R190; 46_irf_and_shift.md R221;
48_indexed_memory.md; 41_stack_and_jumps.md R153; 47_local_branch.md R241) and the shared shapes of the families:
read the operands, compute, write. -/

namespace Sys2Proof.Machine

/-! ## Immediates (R104) -/

/-- imm4 as a 16-bit value, zero-extended, not scaled (R104). -/
def imm4Word (v : BitVec 4) : Word := v.setWidth 16

/-- imm2 as a 16-bit value, zero-extended, not scaled (R104). -/
def imm2Word (v : BitVec 2) : Word := v.setWidth 16

/-- off12 as a 16-bit value, zero-extended, not scaled (R104). -/
def off12Word (v : BitVec 12) : Word := v.setWidth 16

/-- off8 as a 16-bit value, sign-extended (R104; 00_scope.md R8). -/
def off8Word (v : Byte) : Word := v.signExtend 16

/-! ## Shift counts (R221) -/

/-- The register form's count: the low four bits of the count register (R221). -/
def countOfWord (w : Word) : Nat := (w.extractLsb' 0 4).toNat

/-- The immediate form's count (R221). -/
def countOfImm (v : BitVec 4) : Nat := v.toNat

/-! ## Addresses -/

/-- The address of LDI and STI: a register plus imm4, modulo 2^16 (R260, R261). -/
def State.eaImm4 (base : Reg) (imm : BitVec 4) (s : State) : Word := s.reg base + imm4Word imm

/-- The address of LRI and SRI: two registers plus imm2, modulo 2^16 (R262, R263). -/
def State.eaImm2 (base index : Reg) (imm : BitVec 2) (s : State) : Word := s.reg base + s.reg index + imm2Word imm

/-- The address of CAR and RCR: a register plus off12, modulo 2^16 (R212, R213). -/
def State.eaOff12 (r : Reg) (off : BitVec 12) (s : State) : Word := s.reg r + off12Word off

/-- `JumpReg(r)`: npc plus the register, for the one-byte jumps (R153). -/
def State.targetReg (r : Reg) (s : State) : Word := s.npc 1 + s.reg r

/-- `JumpImm(off8)`: npc plus the sign-extended offset, for the two-byte jumps (R241). -/
def State.targetImm (off : Byte) (s : State) : Word := s.npc 2 + off8Word off

/-! ## Shared shapes -/

/-- A register jump that is taken when `cond` holds (R153 to R159). -/
def State.jumpRegIf (cond : Bool) (r : Reg) (s : State) : State :=
  if cond then s.jump (s.targetReg r) else s.advance 1

/-- An immediate jump that is taken when `cond` holds (R241 to R247). -/
def State.jumpImmIf (cond : Bool) (off : Byte) (s : State) : State :=
  if cond then s.jump (s.targetImm off) else s.advance 2

/-- Load 16 bits from `ea` into `r` (R171, R260, R262). -/
def State.load (r : Reg) (ea : Word) (len : Nat) (s : State) : State :=
  (s.setReg r (s.read16 ea)).advance len

/-- Store the 16 bits of `r` at `ea` (R172, R261, R263). -/
def State.store (ea : Word) (r : Reg) (len : Nat) (s : State) : State :=
  (s.write16 ea (s.reg r)).advance len

/-- Write a bitwise result: the destination, Z and S; C is kept (R180 to R185). -/
def State.writeLogic (d : Reg) (v : Word) (len : Nat) (s : State) : State :=
  ((s.setReg d v).setZS v).advance len

/-- Write an arithmetic result: the destination, Z, C and S (R191 to R194, R271, R272). -/
def State.writeArith (d : Reg) (v : Word) (c : Bool) (len : Nat) (s : State) : State :=
  ((s.setReg d v).setZCS v c).advance len

/-- DIV of `a` by `b` into `d`: the quotient with C cleared, or for `b = 0` the parameter DIV0, which gives the
destination and the three flags (R194, R196; log 10). -/
def State.divide (d : Reg) (a b : Word) (s : State) : State :=
  if b = 0#16 then
    ((s.setReg d (Config.div0Result a)).setFlags (Config.div0Z a) (Config.div0C a) (Config.div0S a)).advance 2
  else s.writeArith d (divResult a b) false 2

/-- ROL of `d` by `n` (R222). -/
def State.rotateLeft (d : Reg) (n : Nat) (s : State) : State :=
  s.writeArith d (rolResult (s.reg d) n) (s.shiftC n (rolOut (s.reg d) n)) 2

/-- ROR of `d` by `n` (R223). -/
def State.rotateRight (d : Reg) (n : Nat) (s : State) : State :=
  s.writeArith d (rorResult (s.reg d) n) (s.shiftC n (rorOut (s.reg d) n)) 2

/-- SHL of `d` by `n` (R224). -/
def State.shiftLeft (d : Reg) (n : Nat) (s : State) : State :=
  s.writeArith d (shlResult (s.reg d) n) (s.shiftC n (shlOut (s.reg d) n)) 2

/-- SHR of `d` by `n` (R225). -/
def State.shiftRight (d : Reg) (n : Nat) (s : State) : State :=
  s.writeArith d (shrResult (s.reg d) n) (s.shiftC n (shrOut (s.reg d) n)) 2

/-- A step that reads the 16 bits at `ea` and ends in `t`. -/
def State.reading (s : State) (ea : Word) (t : State) : Host.Outcome State Fault Refusal := nextUnless (s.read16Refusal ea) t

/-- A step that writes the 16 bits at `ea` and ends in `t`. -/
def State.writing (s : State) (ea : Word) (t : State) : Host.Outcome State Fault Refusal := nextUnless (s.write16Refusal ea) t

/-- CAL and CAR: push `npc`, then push SP as the first push left it, then go to `target` (R210, R212). -/
def State.call (target : Word) (s : State) : State :=
  let t := s.push16 (s.npc 3)
  (t.push16 t.sp).jump target

/-- CAL and CAR as a step: two pushes, at SP and at SP - 2 (R210). -/
def State.calling (target : Word) (s : State) : Host.Outcome State Fault Refusal :=
  nextUnless ((s.write16Refusal s.sp).or (s.write16Refusal (s.sp - 2#16))) (s.call target)

/-- RCL and RCR: SP becomes `addr`, then a value is popped into PC (R211, R213). -/
def State.returnFrom (addr : Word) (s : State) : State :=
  let t := State.popSp { s with sp := addr }
  t.jump t.topOfStack

/-- RCL and RCR as a step: one pop, at `addr + 2` (R211). -/
def State.returning (addr : Word) (s : State) : Host.Outcome State Fault Refusal :=
  s.reading (addr + 2#16) (s.returnFrom addr)

end Sys2Proof.Machine
end

