-- ==== Sys2Proof/Machine/Arithmetic.lean ====
section
/-! DEFINITION. ADD, SUB, MUL, DIV in the register and the immediate form (spec 44_arithmetic.md). -/

namespace Sys2Proof.Machine

/-- ADD, register form (R190, R191). -/
def execAddR (rM : Reg) (rL : Reg) (s : State) : Host.Outcome State Fault Refusal :=
  .next (s.writeArith rM (addResult (s.reg rM) (s.reg rL)) (addCarry (s.reg rM) (s.reg rL)) 2)

/-- SUB, register form (R190, R192). -/
def execSubR (rM : Reg) (rL : Reg) (s : State) : Host.Outcome State Fault Refusal :=
  .next (s.writeArith rM (subResult (s.reg rM) (s.reg rL)) (subBorrow (s.reg rM) (s.reg rL)) 2)

/-- MUL, register form (R190, R193). -/
def execMulR (rM : Reg) (rL : Reg) (s : State) : Host.Outcome State Fault Refusal :=
  .next (s.writeArith rM (mulResult (s.reg rM) (s.reg rL)) (mulOverflow (s.reg rM) (s.reg rL)) 2)

/-- DIV, register form (R190, R194, R196). -/
def execDivR (rM : Reg) (rL : Reg) (s : State) : Host.Outcome State Fault Refusal :=
  .next (s.divide rM (s.reg rM) (s.reg rL))

/-- ADD, immediate form (R190, R191). -/
def execAddI (imm4 : BitVec 4) (r : Reg) (_ign : BitVec 2) (s : State) : Host.Outcome State Fault Refusal :=
  .next (s.writeArith r (addResult (s.reg r) (imm4Word imm4)) (addCarry (s.reg r) (imm4Word imm4)) 2)

/-- SUB, immediate form (R190, R192). -/
def execSubI (imm4 : BitVec 4) (r : Reg) (_ign : BitVec 2) (s : State) : Host.Outcome State Fault Refusal :=
  .next (s.writeArith r (subResult (s.reg r) (imm4Word imm4)) (subBorrow (s.reg r) (imm4Word imm4)) 2)

/-- MUL, immediate form (R190, R193). -/
def execMulI (imm4 : BitVec 4) (r : Reg) (_ign : BitVec 2) (s : State) : Host.Outcome State Fault Refusal :=
  .next (s.writeArith r (mulResult (s.reg r) (imm4Word imm4)) (mulOverflow (s.reg r) (imm4Word imm4)) 2)

/-- DIV, immediate form (R190, R194, R196). -/
def execDivI (imm4 : BitVec 4) (r : Reg) (_ign : BitVec 2) (s : State) : Host.Outcome State Fault Refusal :=
  .next (s.divide r (s.reg r) (imm4Word imm4))

end Sys2Proof.Machine
end

