-- ==== Sys2Proof/Machine/Bitwise.lean ====
section
/-! DEFINITION. NEG, NOT, AND, IOR, XOR (spec 43_bitwise.md). -/

namespace Sys2Proof.Machine

/-- NEG: 0 - r (R180). -/
def execNeg (r : Reg) (s : State) : Host.Outcome State Fault Refusal :=
  .next (s.writeLogic r (negResult (s.reg r)) 1)

/-- NOT: every bit inverted (R181). -/
def execNot (r : Reg) (s : State) : Host.Outcome State Fault Refusal :=
  .next (s.writeLogic r (~~~(s.reg r)) 1)

/-- AND into rM (R182). -/
def execAnd (rM : Reg) (rL : Reg) (s : State) : Host.Outcome State Fault Refusal :=
  .next (s.writeLogic rM (s.reg rM &&& s.reg rL) 1)

/-- IOR into rM (R183). -/
def execIor (rM : Reg) (rL : Reg) (s : State) : Host.Outcome State Fault Refusal :=
  .next (s.writeLogic rM (s.reg rM ||| s.reg rL) 1)

/-- XOR into rM (R184). -/
def execXor (rM : Reg) (rL : Reg) (s : State) : Host.Outcome State Fault Refusal :=
  .next (s.writeLogic rM (s.reg rM ^^^ s.reg rL) 1)

end Sys2Proof.Machine
end

