-- ==== Sys2Proof/Machine/Control.lean ====
section
/-! DEFINITION. NOP, INT, ENI, DEI, RST, HLT, CMP, RET (spec 40_control.md). -/

namespace Sys2Proof.Machine

/-- NOP: nothing but the advance (R130). -/
def execNop (s : State) : Host.Outcome State Fault Refusal :=
  .next (s.advance 1)

/-- INT: interrupt entry whatever IE is, with the address after INT saved; RF is not changed (R131, R307). -/
def execInt (s : State) : Host.Outcome State Fault Refusal :=
  .next (s.interruptEntry (s.npc 1))

/-- ENI: IE is set and RF cleared (R132). -/
def execEni (s : State) : Host.Outcome State Fault Refusal :=
  .next (State.advance 1 { s.clearRf with ie := true })

/-- DEI: IE is cleared, RF is kept (R133). -/
def execDei (s : State) : Host.Outcome State Fault Refusal :=
  .next (State.advance 1 { s with ie := false })

/-- RST: the reset sequence (R134, R351). -/
def execRst (s : State) : Host.Outcome State Fault Refusal :=
  .next s.resetSequence

/-- HLT: RF is cleared and the core sleeps (R135, R314). -/
def execHlt (s : State) : Host.Outcome State Fault Refusal :=
  .next (State.advance 1 { s.clearRf with halted := true })

/-- CMP: Z tells whether AX and BX are equal; C and S are kept (R136). -/
def execCmp (s : State) : Host.Outcome State Fault Refusal :=
  .next ((s.setZ (s.ax == s.bx)).advance 1)

/-- RET: return from the interrupt handler (R137, R308). -/
def execRet (s : State) : Host.Outcome State Fault Refusal :=
  .next s.returnFromInterrupt

end Sys2Proof.Machine
end

