-- ==== Sys2Proof/Machine/Immediate.lean ====
section
/-! DEFINITION. MVI, INC, DEC (spec 49_immediate_and_increment.md). -/

namespace Sys2Proof.Machine

/-- MVI: a 16-bit constant into r; no flag is written (R270). -/
def execMvi (r : Reg) (imm16 : Word) (s : State) : Host.Outcome State Fault Refusal :=
  .next ((s.setReg r imm16).advance 3)

/-- INC: as ADD r, #1, in one byte (R271). -/
def execInc (r : Reg) (s : State) : Host.Outcome State Fault Refusal :=
  .next (s.writeArith r (addResult (s.reg r) 1#16) (addCarry (s.reg r) 1#16) 1)

/-- DEC: as SUB r, #1, in one byte (R272). -/
def execDec (r : Reg) (s : State) : Host.Outcome State Fault Refusal :=
  .next (s.writeArith r (subResult (s.reg r) 1#16) (subBorrow (s.reg r) 1#16) 1)

end Sys2Proof.Machine
end

