-- ==== Sys2Proof/Machine/Indexed.lean ====
section
/-! DEFINITION. LDI, STI, LRI, SRI (spec 48_indexed_memory.md). -/

namespace Sys2Proof.Machine

/-- LDI: rM is loaded from rL + imm4 (R260). -/
def execLdi (imm4 : BitVec 4) (rM : Reg) (rL : Reg) (s : State) : Host.Outcome State Fault Refusal :=
  let ea := s.eaImm4 rL imm4
  s.reading ea (s.load rM ea 2)

/-- STI: rL is stored at rM + imm4 (R261). -/
def execSti (imm4 : BitVec 4) (rM : Reg) (rL : Reg) (s : State) : Host.Outcome State Fault Refusal :=
  let ea := s.eaImm4 rM imm4
  s.writing ea (s.store ea rL 2)

/-- LRI: rM is loaded from rL + rMid + imm2 (R262). -/
def execLri (imm2 : BitVec 2) (rM : Reg) (rMid : Reg) (rL : Reg) (s : State) : Host.Outcome State Fault Refusal :=
  let ea := s.eaImm2 rL rMid imm2
  s.reading ea (s.load rM ea 2)

/-- SRI: rL is stored at rMid + rM + imm2 (R263). -/
def execSri (imm2 : BitVec 2) (rM : Reg) (rMid : Reg) (rL : Reg) (s : State) : Host.Outcome State Fault Refusal :=
  let ea := s.eaImm2 rMid rM imm2
  s.writing ea (s.store ea rL 2)

end Sys2Proof.Machine
end

