-- ==== Sys2Proof/Machine/IrfShift.lean ====
section
/-! DEFINITION. IRF and the shifts in the register and the immediate form (spec 46_irf_and_shift.md). -/

namespace Sys2Proof.Machine

/-- IRF: Z tells whether a flag of RF under the mask is raised; C, S and RF are kept (R220). -/
def execIrf (mask8 : Byte) (s : State) : Host.Outcome State Fault Refusal :=
  .next ((s.setZ ((s.rf &&& mask8) != 0#8)).advance 2)

/-- ROL, register form (R221, R222). -/
def execRolR (rM : Reg) (rL : Reg) (s : State) : Host.Outcome State Fault Refusal :=
  .next (s.rotateLeft rM (countOfWord (s.reg rL)))

/-- ROR, register form (R221, R223). -/
def execRorR (rM : Reg) (rL : Reg) (s : State) : Host.Outcome State Fault Refusal :=
  .next (s.rotateRight rM (countOfWord (s.reg rL)))

/-- SHL, register form (R221, R224). -/
def execShlR (rM : Reg) (rL : Reg) (s : State) : Host.Outcome State Fault Refusal :=
  .next (s.shiftLeft rM (countOfWord (s.reg rL)))

/-- SHR, register form (R221, R225). -/
def execShrR (rM : Reg) (rL : Reg) (s : State) : Host.Outcome State Fault Refusal :=
  .next (s.shiftRight rM (countOfWord (s.reg rL)))

/-- ROL, immediate form (R221, R222). -/
def execRolI (imm4 : BitVec 4) (r : Reg) (_ign : BitVec 2) (s : State) : Host.Outcome State Fault Refusal :=
  .next (s.rotateLeft r (countOfImm imm4))

/-- ROR, immediate form (R221, R223). -/
def execRorI (imm4 : BitVec 4) (r : Reg) (_ign : BitVec 2) (s : State) : Host.Outcome State Fault Refusal :=
  .next (s.rotateRight r (countOfImm imm4))

/-- SHL, immediate form (R221, R224). -/
def execShlI (imm4 : BitVec 4) (r : Reg) (_ign : BitVec 2) (s : State) : Host.Outcome State Fault Refusal :=
  .next (s.shiftLeft r (countOfImm imm4))

/-- SHR, immediate form (R221, R225). -/
def execShrI (imm4 : BitVec 4) (r : Reg) (_ign : BitVec 2) (s : State) : Host.Outcome State Fault Refusal :=
  .next (s.shiftRight r (countOfImm imm4))

end Sys2Proof.Machine
end

