-- ==== Sys2Proof/Machine/LocalBranch.lean ====
section
/-! DEFINITION. CLI and the immediate jumps (spec 47_local_branch.md). -/

namespace Sys2Proof.Machine

/-- CLI: clear the flags the mask selects (R240); `ign` has no effect (R109). -/
def execCli (mZ : Bool) (mC : Bool) (mS : Bool) (_ign : BitVec 5) (s : State) : Host.Outcome State Fault Refusal :=
  .next ((s.clearFlags mZ mC mS).advance 2)

/-- JMI: to npc plus the signed offset (R241). -/
def execJmi (off8 : Byte) (s : State) : Host.Outcome State Fault Refusal :=
  .next (s.jumpImmIf true off8)

/-- JZI: as JMI when Z is 1 (R242). -/
def execJzi (off8 : Byte) (s : State) : Host.Outcome State Fault Refusal :=
  .next (s.jumpImmIf s.flagZ off8)

/-- JNI: as JMI when Z is 0 (R243). -/
def execJni (off8 : Byte) (s : State) : Host.Outcome State Fault Refusal :=
  .next (s.jumpImmIf (!s.flagZ) off8)

/-- JLI: as JMI when S is 1 (R244). -/
def execJli (off8 : Byte) (s : State) : Host.Outcome State Fault Refusal :=
  .next (s.jumpImmIf s.flagS off8)

/-- JGI: as JMI when S is 0 (R245). -/
def execJgi (off8 : Byte) (s : State) : Host.Outcome State Fault Refusal :=
  .next (s.jumpImmIf (!s.flagS) off8)

/-- JOI: as JMI when C is 1 (R246). -/
def execJoi (off8 : Byte) (s : State) : Host.Outcome State Fault Refusal :=
  .next (s.jumpImmIf s.flagC off8)

/-- JUI: as JMI when C is 0 (R247). -/
def execJui (off8 : Byte) (s : State) : Host.Outcome State Fault Refusal :=
  .next (s.jumpImmIf (!s.flagC) off8)

end Sys2Proof.Machine
end

