-- ==== Sys2Proof/Machine/Move.lean ====
section
/-! DEFINITION. MOV, LOD, STO (spec 42_move_load_store.md). -/

namespace Sys2Proof.Machine

/-- MOV: rM becomes rL (R170). -/
def execMov (rM : Reg) (rL : Reg) (s : State) : Host.Outcome State Fault Refusal :=
  .next ((s.setReg rM (s.reg rL)).advance 1)

/-- LOD: rM is loaded from the address in rL (R171). -/
def execLod (rM : Reg) (rL : Reg) (s : State) : Host.Outcome State Fault Refusal :=
  s.reading (s.reg rL) (s.load rM (s.reg rL) 1)

/-- STO: rL is stored at the address in rM (R172). -/
def execSto (rM : Reg) (rL : Reg) (s : State) : Host.Outcome State Fault Refusal :=
  s.writing (s.reg rM) (s.store (s.reg rM) rL 1)

end Sys2Proof.Machine
end

