-- ==== Sys2Proof/Machine/Reserved.lean ====
section
/-! DEFINITION. The reserved and unlisted first bytes (spec 30_encoding.md R107, R108): the spec gives them no behaviour and the model stops by name. -/

namespace Sys2Proof.Machine

/-- First byte 0x0A and the rest of its row: FAULT(reserved_opcode) (R107; log 11). -/
def execReserved0A (_low : BitVec 1) (_s : State) : Host.Outcome State Fault Refusal :=
  .fault .reservedOpcode

/-- First byte 0x0C and the rest of its row: FAULT(reserved_opcode) (R107; log 11). -/
def execReserved0C (_low : BitVec 2) (_s : State) : Host.Outcome State Fault Refusal :=
  .fault .reservedOpcode

/-- First byte 0x18 and the rest of its row: FAULT(reserved_opcode) (R107; log 11). -/
def execReserved18 (_low : BitVec 2) (_s : State) : Host.Outcome State Fault Refusal :=
  .fault .reservedOpcode

/-- First byte 0x1C and the rest of its row: FAULT(reserved_opcode) (R107; log 11). -/
def execReserved1C (_low : BitVec 1) (_s : State) : Host.Outcome State Fault Refusal :=
  .fault .reservedOpcode

/-- First byte 0x1E and the rest of its row: FAULT(reserved_opcode) (R107; log 11). -/
def execReserved1E (_s : State) : Host.Outcome State Fault Refusal :=
  .fault .reservedOpcode

/-- First byte 0x40 and the rest of its row: FAULT(reserved_opcode) (R107; log 11). -/
def execReserved40 (_low : BitVec 4) (_s : State) : Host.Outcome State Fault Refusal :=
  .fault .reservedOpcode

/-- First byte 0x88 and the rest of its row: FAULT(reserved_opcode) (R107; log 11). -/
def execReserved88 (_low : BitVec 3) (_s : State) : Host.Outcome State Fault Refusal :=
  .fault .reservedOpcode

/-- First byte 0x06 and the rest of its row: FAULT(unlisted_opcode) (R108; log 11). -/
def execUnlisted06 (_low : BitVec 1) (_s : State) : Host.Outcome State Fault Refusal :=
  .fault .unlistedOpcode

/-- First byte 0x20 and the rest of its row: FAULT(unlisted_opcode) (R108; log 11). -/
def execUnlisted20 (_low : BitVec 2) (_s : State) : Host.Outcome State Fault Refusal :=
  .fault .unlistedOpcode

/-- First byte 0xC4 and the rest of its row: FAULT(unlisted_opcode) (R108; log 11). -/
def execUnlistedC4 (_low : BitVec 2) (_s : State) : Host.Outcome State Fault Refusal :=
  .fault .unlistedOpcode

/-- First byte 0xC8 and the rest of its row: FAULT(unlisted_opcode) (R108; log 11). -/
def execUnlistedC8 (_low : BitVec 3) (_s : State) : Host.Outcome State Fault Refusal :=
  .fault .unlistedOpcode

/-- First byte 0xD4 and the rest of its row: FAULT(unlisted_opcode) (R108; log 11). -/
def execUnlistedD4 (_low : BitVec 2) (_s : State) : Host.Outcome State Fault Refusal :=
  .fault .unlistedOpcode

/-- First byte 0xD8 and the rest of its row: FAULT(unlisted_opcode) (R108; log 11). -/
def execUnlistedD8 (_low : BitVec 3) (_s : State) : Host.Outcome State Fault Refusal :=
  .fault .unlistedOpcode

/-- First byte 0xE0 and the rest of its row: FAULT(unlisted_opcode) (R108; log 11). -/
def execUnlistedE0 (_low : BitVec 1) (_s : State) : Host.Outcome State Fault Refusal :=
  .fault .unlistedOpcode

/-- First byte 0xE2 and the rest of its row: FAULT(unlisted_opcode) (R108; log 11). -/
def execUnlistedE2 (_s : State) : Host.Outcome State Fault Refusal :=
  .fault .unlistedOpcode

end Sys2Proof.Machine
end

