-- ==== Sys2Proof/Machine/StackJump.lean ====
section
/-! DEFINITION. PUS, POP, LJP and the register jumps (spec 41_stack_and_jumps.md). -/

namespace Sys2Proof.Machine

/-- PUS: push a register; PUS SP pushes the old SP (R150). -/
def execPus (r : Reg) (s : State) : Host.Outcome State Fault Refusal :=
  s.writing s.sp ((s.push16 (s.reg r)).advance 1)

/-- POP: SP goes up by 2, then the register is loaded from there; POP SP ends with the loaded value (R151). -/
def execPop (r : Reg) (s : State) : Host.Outcome State Fault Refusal :=
  let t := s.popSp
  s.reading t.sp ((t.setReg r t.topOfStack).advance 1)

/-- LJP: to the absolute address (R152). -/
def execLjp (addr16 : Word) (s : State) : Host.Outcome State Fault Refusal :=
  .next (s.jump addr16)

/-- JMP: to npc plus the register (R153). -/
def execJmp (r : Reg) (s : State) : Host.Outcome State Fault Refusal :=
  .next (s.jumpRegIf true r)

/-- JIZ: as JMP when Z is 1 (R154). -/
def execJiz (r : Reg) (s : State) : Host.Outcome State Fault Refusal :=
  .next (s.jumpRegIf s.flagZ r)

/-- JNZ: as JMP when Z is 0 (R155). -/
def execJnz (r : Reg) (s : State) : Host.Outcome State Fault Refusal :=
  .next (s.jumpRegIf (!s.flagZ) r)

/-- JLT: as JMP when S is 1 (R156). -/
def execJlt (r : Reg) (s : State) : Host.Outcome State Fault Refusal :=
  .next (s.jumpRegIf s.flagS r)

/-- JGE: as JMP when S is 0 (R157). -/
def execJge (r : Reg) (s : State) : Host.Outcome State Fault Refusal :=
  .next (s.jumpRegIf (!s.flagS) r)

/-- JOF: as JMP when C is 1 (R158). -/
def execJof (r : Reg) (s : State) : Host.Outcome State Fault Refusal :=
  .next (s.jumpRegIf s.flagC r)

/-- JNF: as JMP when C is 0 (R159). -/
def execJnf (r : Reg) (s : State) : Host.Outcome State Fault Refusal :=
  .next (s.jumpRegIf (!s.flagC) r)

end Sys2Proof.Machine
end

