-- ==== Sys2Proof/Machine/Subroutine.lean ====
section
/-! DEFINITION. CAL, RCL, CAR, RCR (spec 45_subroutine.md). -/

namespace Sys2Proof.Machine

/-- CAL: call an absolute address (R210). -/
def execCal (addr16 : Word) (s : State) : Host.Outcome State Fault Refusal :=
  s.calling addr16

/-- RCL: return with an absolute stack address (R211). -/
def execRcl (addr16 : Word) (s : State) : Host.Outcome State Fault Refusal :=
  s.returning addr16

/-- CAR: call a register plus an offset, read before the pushes (R212); `ign` has no effect (R109). -/
def execCar (_ign : BitVec 2) (r : Reg) (off12 : BitVec 12) (s : State) : Host.Outcome State Fault Refusal :=
  s.calling (s.eaOff12 r off12)

/-- RCR: return with a register plus an offset as stack address (R213); `ign` has no effect (R109). -/
def execRcr (_ign : BitVec 2) (r : Reg) (off12 : BitVec 12) (s : State) : Host.Outcome State Fault Refusal :=
  s.returning (s.eaOff12 r off12)

end Sys2Proof.Machine
end

