-- ==== Sys2Proof/Machine/Dispatch.lean ====
section
/-! DEFINITION. Which meaning each instruction has: one arm per constructor of Instr. -/

namespace Sys2Proof.Machine

def exec (i : Instr) (s : State) : Host.Outcome State Fault Refusal :=
  match i with
  | .nop => Sys2Proof.Machine.execNop s
  | .int => Sys2Proof.Machine.execInt s
  | .eni => Sys2Proof.Machine.execEni s
  | .dei => Sys2Proof.Machine.execDei s
  | .rst => Sys2Proof.Machine.execRst s
  | .hlt => Sys2Proof.Machine.execHlt s
  | .cmp => Sys2Proof.Machine.execCmp s
  | .ret => Sys2Proof.Machine.execRet s
  | .pus r => Sys2Proof.Machine.execPus r s
  | .pop r => Sys2Proof.Machine.execPop r s
  | .ljp addr16 => Sys2Proof.Machine.execLjp addr16 s
  | .jmp r => Sys2Proof.Machine.execJmp r s
  | .jiz r => Sys2Proof.Machine.execJiz r s
  | .jnz r => Sys2Proof.Machine.execJnz r s
  | .jlt r => Sys2Proof.Machine.execJlt r s
  | .jge r => Sys2Proof.Machine.execJge r s
  | .jof r => Sys2Proof.Machine.execJof r s
  | .jnf r => Sys2Proof.Machine.execJnf r s
  | .mov rM rL => Sys2Proof.Machine.execMov rM rL s
  | .lod rM rL => Sys2Proof.Machine.execLod rM rL s
  | .sto rM rL => Sys2Proof.Machine.execSto rM rL s
  | .neg r => Sys2Proof.Machine.execNeg r s
  | .not r => Sys2Proof.Machine.execNot r s
  | .and rM rL => Sys2Proof.Machine.execAnd rM rL s
  | .ior rM rL => Sys2Proof.Machine.execIor rM rL s
  | .xor rM rL => Sys2Proof.Machine.execXor rM rL s
  | .addR rM rL => Sys2Proof.Machine.execAddR rM rL s
  | .subR rM rL => Sys2Proof.Machine.execSubR rM rL s
  | .mulR rM rL => Sys2Proof.Machine.execMulR rM rL s
  | .divR rM rL => Sys2Proof.Machine.execDivR rM rL s
  | .addI imm4 r ign => Sys2Proof.Machine.execAddI imm4 r ign s
  | .subI imm4 r ign => Sys2Proof.Machine.execSubI imm4 r ign s
  | .mulI imm4 r ign => Sys2Proof.Machine.execMulI imm4 r ign s
  | .divI imm4 r ign => Sys2Proof.Machine.execDivI imm4 r ign s
  | .cal addr16 => Sys2Proof.Machine.execCal addr16 s
  | .rcl addr16 => Sys2Proof.Machine.execRcl addr16 s
  | .car ign r off12 => Sys2Proof.Machine.execCar ign r off12 s
  | .rcr ign r off12 => Sys2Proof.Machine.execRcr ign r off12 s
  | .irf mask8 => Sys2Proof.Machine.execIrf mask8 s
  | .rolR rM rL => Sys2Proof.Machine.execRolR rM rL s
  | .rorR rM rL => Sys2Proof.Machine.execRorR rM rL s
  | .shlR rM rL => Sys2Proof.Machine.execShlR rM rL s
  | .shrR rM rL => Sys2Proof.Machine.execShrR rM rL s
  | .rolI imm4 r ign => Sys2Proof.Machine.execRolI imm4 r ign s
  | .rorI imm4 r ign => Sys2Proof.Machine.execRorI imm4 r ign s
  | .shlI imm4 r ign => Sys2Proof.Machine.execShlI imm4 r ign s
  | .shrI imm4 r ign => Sys2Proof.Machine.execShrI imm4 r ign s
  | .cli mZ mC mS ign => Sys2Proof.Machine.execCli mZ mC mS ign s
  | .jmi off8 => Sys2Proof.Machine.execJmi off8 s
  | .jzi off8 => Sys2Proof.Machine.execJzi off8 s
  | .jni off8 => Sys2Proof.Machine.execJni off8 s
  | .jli off8 => Sys2Proof.Machine.execJli off8 s
  | .jgi off8 => Sys2Proof.Machine.execJgi off8 s
  | .joi off8 => Sys2Proof.Machine.execJoi off8 s
  | .jui off8 => Sys2Proof.Machine.execJui off8 s
  | .ldi imm4 rM rL => Sys2Proof.Machine.execLdi imm4 rM rL s
  | .sti imm4 rM rL => Sys2Proof.Machine.execSti imm4 rM rL s
  | .lri imm2 rM rMid rL => Sys2Proof.Machine.execLri imm2 rM rMid rL s
  | .sri imm2 rM rMid rL => Sys2Proof.Machine.execSri imm2 rM rMid rL s
  | .mvi r imm16 => Sys2Proof.Machine.execMvi r imm16 s
  | .inc r => Sys2Proof.Machine.execInc r s
  | .dec r => Sys2Proof.Machine.execDec r s
  | .reserved0A low => Sys2Proof.Machine.execReserved0A low s
  | .reserved0C low => Sys2Proof.Machine.execReserved0C low s
  | .reserved18 low => Sys2Proof.Machine.execReserved18 low s
  | .reserved1C low => Sys2Proof.Machine.execReserved1C low s
  | .reserved1E => Sys2Proof.Machine.execReserved1E s
  | .reserved40 low => Sys2Proof.Machine.execReserved40 low s
  | .reserved88 low => Sys2Proof.Machine.execReserved88 low s
  | .unlisted06 low => Sys2Proof.Machine.execUnlisted06 low s
  | .unlisted20 low => Sys2Proof.Machine.execUnlisted20 low s
  | .unlistedC4 low => Sys2Proof.Machine.execUnlistedC4 low s
  | .unlistedC8 low => Sys2Proof.Machine.execUnlistedC8 low s
  | .unlistedD4 low => Sys2Proof.Machine.execUnlistedD4 low s
  | .unlistedD8 low => Sys2Proof.Machine.execUnlistedD8 low s
  | .unlistedE0 low => Sys2Proof.Machine.execUnlistedE0 low s
  | .unlistedE2 => Sys2Proof.Machine.execUnlistedE2 s

end Sys2Proof.Machine
end

