-- ==== Sys2Proof/Machine/Cycle.lean ====
section
/-! DEFINITION. The instruction cycle (spec 10_state.md R27): the environment at the boundary, sleep and waking, the
interrupt check, fetch and execute. -/

namespace Sys2Proof.Machine

/-- The environment acts at the boundary: the next entry of its schedule is raised in RF (60_exceptions.md R302; log 8). -/
def State.environmentActs (s : State) : State :=
  match s.events with
  | [] => s
  | e :: es => State.raiseFlags e { s with events := es }

/-- HALTED = 1 and RF = 0x00: the core has no enabled step (R27, R314). -/
def State.isAsleep (s : State) : Bool := s.halted && s.rf == 0#8

/-- HALTED is cleared (R27, R314). -/
def State.wake (s : State) : State := { s with halted := false }

/-- IE = 1 and RF is not 0x00: an interrupt is taken at this boundary (R304). -/
def State.interruptDue (s : State) : Bool := s.ie && s.rf != 0#8

/-- The instruction at `pc`. Reads have no side effects (20_memory.md R67), so the bytes past its length, which the
decoder does not look at, may be named here as well (R27, R90; log 18). -/
def State.fetch (s : State) : Instr :=
  decodeBytes (s.byteAt s.pc) (s.byteAt (s.pc + 1#16)) (s.byteAt (s.pc + 2#16))

/-- Why the bytes of the instruction at `pc` cannot be fetched, if they cannot: as many as it is long are read, the first
one first (R27; log 17). -/
def State.fetchRefusal (s : State) : Option Refusal :=
  let n := lengthOf (s.byteAt s.pc)
  (s.readRefusal s.pc).or
    ((if 2 ≤ n then s.readRefusal (s.pc + 1#16) else none).or (if n = 3 then s.readRefusal (s.pc + 2#16) else none))

/-- Fetch and execute (R27). -/
def State.fetchAndExecute (s : State) : Host.Outcome State Fault Refusal :=
  match s.fetchRefusal with
  | none => exec s.fetch s
  | some why => .refused why

/-- One pass of the cycle after the environment acted on a core that is not asleep (R27). -/
def State.pass (s : State) : Host.Outcome State Fault Refusal :=
  if s.interruptDue then .next (s.interruptEntry s.pc) else s.fetchAndExecute

/-- One pass of the cycle (R27). No step of a core that stays asleep is enabled. The model's choice (DESIGN CHOICE, log
9): one boundary of the environment's schedule goes by (log 8), and when it is over the step is the stuck state `asleep`
(R356). -/
def cycle (s : State) : Host.Outcome State Fault Refusal :=
  let t := s.environmentActs
  if t.isAsleep then
    if s.events.isEmpty then .fault .asleep else .next t
  else t.wake.pass

/-- The schedule with nothing raised at the coming boundary. -/
def silenceNext : List Byte → List Byte
  | [] => []
  | _ :: es => 0#8 :: es

/-- Put the bytes of an opcode-table word at `pc` and let nothing stand before their execution: the core is awake and
no interrupt is due at the coming boundary; a map that forbids the fetch gives way to the default (log 16). -/
def State.placeInstruction (nbits w : Nat) (s : State) : State :=
  let b := tableBytes nbits w
  let t := ((s.writeByte s.pc b.1).writeByte (s.pc + 1#16) b.2.1).writeByte (s.pc + 2#16) b.2.2
  { t with
    halted := false
    platform := if t.fetchRefusal = none then s.platform else { s.platform with memMap := [] }
    rf := if s.ie then 0#8 else s.rf
    events := if s.ie then silenceNext s.events else s.events }

end Sys2Proof.Machine
end

