-- ==== Sys2Proof/Machine/Step.lean ====
section
/-! DEFINITION. One step of the machine is one pass of the instruction cycle (spec 10_state.md R27). -/

namespace Sys2Proof.Machine

/-- One step (R27). -/
def step (s : State) : Host.Outcome State Fault Refusal := cycle s

/-- The state with an opcode-table word stored where the next step fetches, and nothing before it (log 16). -/
def State.withFetchWord (s : State) (nbits w : Nat) : State := s.placeInstruction nbits w

end Sys2Proof.Machine
end

