-- ==== Sys2Proof/Safety.lean ====
section
/-! DEFINITION. What claims about the machine are stated in: the invariant of every state a run reaches, what an
instruction leaves unchanged, and the lists of instructions the spec's rules name. -/

namespace Sys2Proof

/-- The number of a register, its selector code (10_state.md R20, 30_encoding.md R91). -/
def Reg.number : Reg → Nat
  | .ax => 0
  | .bx => 1
  | .cx => 2
  | .sp => 3

/-- The instruction is one of the 62 listed forms, not a reserved or unlisted byte (30_encoding.md R105, R107, R108). -/
def Instr.isListed : Instr → Bool
  | .reserved0A _ | .reserved0C _ | .reserved18 _ | .reserved1C _ | .reserved1E | .reserved40 _ | .reserved88 _ => false
  | .unlisted06 _ | .unlisted20 _ | .unlistedC4 _ | .unlistedC8 _ | .unlistedD4 _ | .unlistedD8 _ | .unlistedE0 _ => false
  | .unlistedE2 => false
  | .nop | .int | .eni | .dei | .rst | .hlt | .cmp | .ret | .pus _ | .pop _ | .ljp _ | .jmp _ | .jiz _
  | .jnz _ | .jlt _ | .jge _ | .jof _ | .jnf _ | .mov .. | .lod .. | .sto .. | .neg _ | .not _ | .and ..
  | .ior .. | .xor .. | .addR .. | .subR .. | .mulR .. | .divR .. | .addI .. | .subI .. | .mulI ..
  | .divI .. | .cal _ | .rcl _ | .car .. | .rcr .. | .irf _ | .rolR .. | .rorR .. | .shlR .. | .shrR ..
  | .rolI .. | .rorI .. | .shlI .. | .shrI .. | .cli .. | .jmi _ | .jzi _ | .jni _ | .jli _ | .jgi _
  | .joi _ | .jui _ | .ldi .. | .sti .. | .lri .. | .sri .. | .mvi .. | .inc _ | .dec _ => true

/-- The value of PC flows into other state or into the new PC: the relative jumps, CAL, CAR, INT (the last sentence of
10_state.md R26). -/
def Instr.readsPc : Instr → Bool
  | .jmp _ | .jiz _ | .jnz _ | .jlt _ | .jge _ | .jof _ | .jnf _ | .jmi _ | .jzi _ | .jni _ | .jli _
  | .jgi _ | .joi _ | .jui _ | .cal _ | .car .. | .int => true
  | .nop | .eni | .dei | .rst | .hlt | .cmp | .ret | .pus _ | .pop _ | .ljp _ | .mov .. | .lod .. | .sto ..
  | .neg _ | .not _ | .and .. | .ior .. | .xor .. | .addR .. | .subR .. | .mulR .. | .divR .. | .addI ..
  | .subI .. | .mulI .. | .divI .. | .rcl _ | .rcr .. | .irf _ | .rolR .. | .rorR .. | .shlR .. | .shrR ..
  | .rolI .. | .rorI .. | .shlI .. | .shrI .. | .cli .. | .ldi .. | .sti .. | .lri .. | .sri .. | .mvi ..
  | .inc _ | .dec _ | .reserved0A _ | .reserved0C _ | .reserved18 _ | .reserved1C _ | .reserved1E
  | .reserved40 _ | .reserved88 _ | .unlisted06 _ | .unlisted20 _ | .unlistedC4 _ | .unlistedC8 _
  | .unlistedD4 _ | .unlistedD8 _ | .unlistedE0 _ | .unlistedE2 => false

/-- The new PC by the table of 10_state.md R26: the sequential advance of R25 unless the instruction is listed there. -/
def Instr.pcAfter (i : Instr) (s : Machine.State) : Word :=
  let npc := s.pc + BitVec.ofNat 16 i.length
  let word (b1 b2 : Byte) : Word := BitVec.ofNat 16 (256 * b1.toNat + b2.toNat)
  let popped (sp : Word) : Word := word (s.byteAt (sp + 2#16)) (s.byteAt (sp + 3#16))
  let ifTaken (c : Bool) (target : Word) : Word := if c then target else npc
  match i with
  | .jmp r => npc + s.reg r
  | .jiz r => ifTaken (s.rs.getLsbD 7) (npc + s.reg r)
  | .jnz r => ifTaken (!s.rs.getLsbD 7) (npc + s.reg r)
  | .jlt r => ifTaken (s.rs.getLsbD 5) (npc + s.reg r)
  | .jge r => ifTaken (!s.rs.getLsbD 5) (npc + s.reg r)
  | .jof r => ifTaken (s.rs.getLsbD 6) (npc + s.reg r)
  | .jnf r => ifTaken (!s.rs.getLsbD 6) (npc + s.reg r)
  | .jmi off8 => npc + BitVec.ofInt 16 off8.toInt
  | .jzi off8 => ifTaken (s.rs.getLsbD 7) (npc + BitVec.ofInt 16 off8.toInt)
  | .jni off8 => ifTaken (!s.rs.getLsbD 7) (npc + BitVec.ofInt 16 off8.toInt)
  | .jli off8 => ifTaken (s.rs.getLsbD 5) (npc + BitVec.ofInt 16 off8.toInt)
  | .jgi off8 => ifTaken (!s.rs.getLsbD 5) (npc + BitVec.ofInt 16 off8.toInt)
  | .joi off8 => ifTaken (s.rs.getLsbD 6) (npc + BitVec.ofInt 16 off8.toInt)
  | .jui off8 => ifTaken (!s.rs.getLsbD 6) (npc + BitVec.ofInt 16 off8.toInt)
  | .ljp addr16 | .cal addr16 => addr16
  | .car _ r off12 => s.reg r + BitVec.ofNat 16 off12.toNat
  | .rcl addr16 => popped addr16
  | .rcr _ r off12 => popped (s.reg r + BitVec.ofNat 16 off12.toNat)
  | .int => Config.intVector
  | .ret => s.intState.pc
  | .rst => s.platform.resetPc
  | .nop | .eni | .dei | .hlt | .cmp | .pus _ | .pop _ | .mov .. | .lod .. | .sto .. | .neg _ | .not _
  | .and .. | .ior .. | .xor .. | .addR .. | .subR .. | .mulR .. | .divR .. | .addI .. | .subI .. | .mulI ..
  | .divI .. | .irf _ | .rolR .. | .rorR .. | .shlR .. | .shrR .. | .rolI .. | .rorI .. | .shlI ..
  | .shrI .. | .cli .. | .ldi .. | .sti .. | .lri .. | .sri .. | .mvi .. | .inc _ | .dec _ | .reserved0A _
  | .reserved0C _ | .reserved18 _ | .reserved1C _ | .reserved1E | .reserved40 _ | .reserved88 _
  | .unlisted06 _ | .unlisted20 _ | .unlistedC4 _ | .unlistedC8 _ | .unlistedD4 _ | .unlistedD8 _
  | .unlistedE0 _ | .unlistedE2 => npc

/-- The instruction writes some flag of RS (the table of 10_state.md R31). -/
def Instr.writesRs : Instr → Bool
  | .addR .. | .subR .. | .mulR .. | .divR .. | .addI .. | .subI .. | .mulI .. | .divI .. => true
  | .neg _ | .not _ | .and .. | .ior .. | .xor .. => true
  | .rolR .. | .rorR .. | .shlR .. | .shrR .. | .rolI .. | .rorI .. | .shlI .. | .shrI .. => true
  | .inc _ | .dec _ | .cmp | .irf _ | .cli .. | .ret | .rst => true
  | .nop | .int | .eni | .dei | .hlt | .pus _ | .pop _ | .ljp _ | .jmp _ | .jiz _ | .jnz _ | .jlt _ | .jge _
  | .jof _ | .jnf _ | .mov .. | .lod .. | .sto .. | .cal _ | .rcl _ | .car .. | .rcr .. | .jmi _ | .jzi _
  | .jni _ | .jli _ | .jgi _ | .joi _ | .jui _ | .ldi .. | .sti .. | .lri .. | .sri .. | .mvi ..
  | .reserved0A _ | .reserved0C _ | .reserved18 _ | .reserved1C _ | .reserved1E | .reserved40 _
  | .reserved88 _ | .unlisted06 _ | .unlisted20 _ | .unlistedC4 _ | .unlistedC8 _ | .unlistedD4 _
  | .unlistedD8 _ | .unlistedE0 _ | .unlistedE2 => false

/-- The addresses of a 16-bit access (20_memory.md R63). -/
def wordAt (ea : Word) : List Word := [ea, ea + 1#16]

/-- The addresses an instruction reads data from, its own bytes apart (the table of 20_memory.md R61). -/
def Instr.reads (i : Instr) (s : Machine.State) : List Word :=
  match i with
  | .lod _ rL => wordAt (s.reg rL)
  | .ldi imm4 _ rL => wordAt (s.reg rL + BitVec.ofNat 16 imm4.toNat)
  | .lri imm2 _ rMid rL => wordAt (s.reg rL + s.reg rMid + BitVec.ofNat 16 imm2.toNat)
  | .pop _ => wordAt (s.sp + 2#16)
  | .rcl addr16 => wordAt (addr16 + 2#16)
  | .rcr _ r off12 => wordAt (s.reg r + BitVec.ofNat 16 off12.toNat + 2#16)
  | .nop | .int | .eni | .dei | .rst | .hlt | .cmp | .ret | .pus _ | .ljp _ | .jmp _ | .jiz _ | .jnz _
  | .jlt _ | .jge _ | .jof _ | .jnf _ | .mov .. | .sto .. | .neg _ | .not _ | .and .. | .ior .. | .xor ..
  | .addR .. | .subR .. | .mulR .. | .divR .. | .addI .. | .subI .. | .mulI .. | .divI .. | .cal _ | .car ..
  | .irf _ | .rolR .. | .rorR .. | .shlR .. | .shrR .. | .rolI .. | .rorI .. | .shlI .. | .shrI .. | .cli ..
  | .jmi _ | .jzi _ | .jni _ | .jli _ | .jgi _ | .joi _ | .jui _ | .sti .. | .sri .. | .mvi .. | .inc _
  | .dec _ | .reserved0A _ | .reserved0C _ | .reserved18 _ | .reserved1C _ | .reserved1E | .reserved40 _
  | .reserved88 _ | .unlisted06 _ | .unlisted20 _ | .unlistedC4 _ | .unlistedC8 _ | .unlistedD4 _
  | .unlistedD8 _ | .unlistedE0 _ | .unlistedE2 => []

/-- The addresses an instruction writes (the table of R61). -/
def Instr.writes (i : Instr) (s : Machine.State) : List Word :=
  match i with
  | .sto rM _ => wordAt (s.reg rM)
  | .sti imm4 rM _ => wordAt (s.reg rM + BitVec.ofNat 16 imm4.toNat)
  | .sri imm2 rM rMid _ => wordAt (s.reg rMid + s.reg rM + BitVec.ofNat 16 imm2.toNat)
  | .pus _ => wordAt s.sp
  | .cal _ | .car .. => wordAt s.sp ++ wordAt (s.sp - 2#16)
  | .nop | .int | .eni | .dei | .rst | .hlt | .cmp | .ret | .pop _ | .ljp _ | .jmp _ | .jiz _ | .jnz _
  | .jlt _ | .jge _ | .jof _ | .jnf _ | .mov .. | .lod .. | .neg _ | .not _ | .and .. | .ior .. | .xor ..
  | .addR .. | .subR .. | .mulR .. | .divR .. | .addI .. | .subI .. | .mulI .. | .divI .. | .rcl _ | .rcr ..
  | .irf _ | .rolR .. | .rorR .. | .shlR .. | .shrR .. | .rolI .. | .rorI .. | .shlI .. | .shrI .. | .cli ..
  | .jmi _ | .jzi _ | .jni _ | .jli _ | .jgi _ | .joi _ | .jui _ | .ldi .. | .lri .. | .mvi .. | .inc _
  | .dec _ | .reserved0A _ | .reserved0C _ | .reserved18 _ | .reserved1C _ | .reserved1E | .reserved40 _
  | .reserved88 _ | .unlisted06 _ | .unlisted20 _ | .unlistedC4 _ | .unlistedC8 _ | .unlistedD4 _
  | .unlistedD8 _ | .unlistedE0 _ | .unlistedE2 => []

/-- The general registers an instruction may write: the destination its encoding selects, SP for the stack and
subroutine instructions, all four for RET and RST (10_state.md R22; the rules of files 40 to 49). -/
def Instr.destinations : Instr → List Reg
  | .mov rM _ | .lod rM _ | .and rM _ | .ior rM _ | .xor rM _ => [rM]
  | .addR rM _ | .subR rM _ | .mulR rM _ | .divR rM _ => [rM]
  | .rolR rM _ | .rorR rM _ | .shlR rM _ | .shrR rM _ => [rM]
  | .addI _ r _ | .subI _ r _ | .mulI _ r _ | .divI _ r _ => [r]
  | .rolI _ r _ | .rorI _ r _ | .shlI _ r _ | .shrI _ r _ => [r]
  | .neg r | .not r | .inc r | .dec r | .mvi r _ => [r]
  | .ldi _ rM _ | .lri _ rM _ _ => [rM]
  | .pus _ | .cal _ | .car .. | .rcl _ | .rcr .. => [.sp]
  | .pop r => [r, .sp]
  | .ret | .rst => [.ax, .bx, .cx, .sp]
  | .nop | .int | .eni | .dei | .hlt | .cmp | .ljp _ | .jmp _ | .jiz _ | .jnz _ | .jlt _ | .jge _ | .jof _
  | .jnf _ | .sto .. | .irf _ | .cli .. | .jmi _ | .jzi _ | .jni _ | .jli _ | .jgi _ | .joi _ | .jui _
  | .sti .. | .sri .. | .reserved0A _ | .reserved0C _ | .reserved18 _ | .reserved1C _ | .reserved1E
  | .reserved40 _ | .reserved88 _ | .unlisted06 _ | .unlisted20 _ | .unlistedC4 _ | .unlistedC8 _
  | .unlistedD4 _ | .unlistedD8 _ | .unlistedE0 _ | .unlistedE2 => []

/-- A first byte the source marks reserved (30_encoding.md R107). -/
def reservedByte (n : Nat) : Bool :=
  (0x0A ≤ n && n ≤ 0x0F) || (0x18 ≤ n && n ≤ 0x1E) || (0x40 ≤ n && n ≤ 0x4F) || (0x88 ≤ n && n ≤ 0x8F)

/-- A first byte the source does not list (30_encoding.md R108). -/
def unlistedByte (n : Nat) : Bool :=
  (0x06 ≤ n && n ≤ 0x07) || (0x20 ≤ n && n ≤ 0x23) || (0xC4 ≤ n && n ≤ 0xCF) || (0xD4 ≤ n && n ≤ 0xDF) ||
    (0xE0 ≤ n && n ≤ 0xE2)

/-- The instruction is the register form of a two-form mnemonic (format A2R, 30_encoding.md R95). -/
def Instr.isRegisterForm : Instr → Bool
  | .addR .. | .subR .. | .mulR .. | .divR .. | .rolR .. | .rorR .. | .shlR .. | .shrR .. => true
  | .nop | .int | .eni | .dei | .rst | .hlt | .cmp | .ret | .pus _ | .pop _ | .ljp _ | .jmp _ | .jiz _
  | .jnz _ | .jlt _ | .jge _ | .jof _ | .jnf _ | .mov .. | .lod .. | .sto .. | .neg _ | .not _ | .and ..
  | .ior .. | .xor .. | .addI .. | .subI .. | .mulI .. | .divI .. | .cal _ | .rcl _ | .car .. | .rcr ..
  | .irf _ | .rolI .. | .rorI .. | .shlI .. | .shrI .. | .cli .. | .jmi _ | .jzi _ | .jni _ | .jli _
  | .jgi _ | .joi _ | .jui _ | .ldi .. | .sti .. | .lri .. | .sri .. | .mvi .. | .inc _ | .dec _
  | .reserved0A _ | .reserved0C _ | .reserved18 _ | .reserved1C _ | .reserved1E | .reserved40 _
  | .reserved88 _ | .unlisted06 _ | .unlisted20 _ | .unlistedC4 _ | .unlistedC8 _ | .unlistedD4 _
  | .unlistedD8 _ | .unlistedE0 _ | .unlistedE2 => false

/-- A first byte two forms share: 0xC0 - 0xC3, 0xE4 - 0xE7 (30_encoding.md R110). -/
def twoFormByte (n : Nat) : Bool := (0xC0 ≤ n && n ≤ 0xC3) || (0xE4 ≤ n && n ≤ 0xE7)

namespace Machine

/-- The invariant of every state: bits 4:0 of RS and RF are 0 (10_state.md R28, R32), and memory has its canonical
form. -/
def State.Inv (s : State) : Prop :=
  s.rs &&& 0x1F#8 = 0#8 ∧ s.rf &&& 0x1F#8 = 0#8 ∧ Memory.wf s.mem = true

/-- `t` agrees with `s` outside PC, RS, the registers in `regs` and the bytes at the addresses in `bytes`. -/
def State.frame (s t : State) (regs : List Reg) (bytes : List Word) : Prop :=
  (∀ r, r ∉ regs → t.reg r = s.reg r) ∧ (∀ a, a ∉ bytes → t.byteAt a = s.byteAt a) ∧
  t.rf = s.rf ∧ t.intState = s.intState ∧ t.ie = s.ie ∧ t.halted = s.halted ∧
  t.events = s.events ∧ t.draws = s.draws ∧ t.platform = s.platform

/-- RS holds these three flags, and 0 in bits 4:0 (10_state.md R28). -/
def State.flagsAre (t : State) (z c sg : Bool) : Prop :=
  t.rs.getLsbD 7 = z ∧ t.rs.getLsbD 6 = c ∧ t.rs.getLsbD 5 = sg ∧ t.rs &&& 0x1F#8 = 0#8

/-- Z and S as a 16-bit result has them: Z for the value 0, S for a value with bit 15 (10_state.md R29). -/
def State.flagsOf (t : State) (v : Nat) (c : Bool) : Prop :=
  t.flagsAre (decide (v = 0)) c (decide (32768 ≤ v))

/-- `u` is `s` after the environment acted at the boundary: the next entry of the schedule is raised in RF, bits 7:5
only; with no entry left nothing happens (60_exceptions.md R302; log 8). -/
def State.atBoundary (s u : State) : Prop :=
  (s.events = [] ∧ u = s) ∨
  ∃ e es, s.events = e :: es ∧ u = { s with events := es, rf := s.rf ||| (e &&& 0xE0#8) }

/-- What interrupt entry leaves (60_exceptions.md R305): IS holds the registers, `savedPc`, RS, RF and IE; IE and HALTED
are 0; PC is `INT_VECTOR`; all else is as before. -/
def State.entered (s : State) (savedPc : Word) : State :=
  { s with
    intState :=
      { ax := s.ax, bx := s.bx, cx := s.cx, sp := s.sp, pc := savedPc, rs := s.rs, rf := s.rf,
        retAddr := s.intState.retAddr, ie := s.ie }
    ie := false
    halted := false
    pc := Config.intVector }

/-- A shift or rotate of `d` by `n` took `s` to `t`: bit `k` of the result is `bit k`, Z and S are those of the result,
C is `out` unless `n` is 0, and nothing else changed but PC (46_irf_and_shift.md R221). -/
def State.shifted (s t : State) (d : Reg) (n : Nat) (bit : Nat → Bool) (out : Bool) : Prop :=
  (∀ k, k < 16 → (t.reg d).getLsbD k = bit k) ∧
  t.flagsOf (t.reg d).toNat (if n = 0 then s.rs.getLsbD 6 else out) ∧
  t.pc = s.pc + 2#16 ∧ s.frame t [d] []

/-- The outcome is a next state of which `P` holds. -/
def Completes (o : Host.Outcome State Fault Refusal) (P : State → Prop) : Prop := ∃ t, o = .next t ∧ P t

/-- The outcome is a refusal that names one of these addresses: a device's byte read or written, or a ROM's byte written
(log 17). -/
def State.RefusedAt (s : State) (reads writes : List Word) (o : Host.Outcome State Fault Refusal) : Prop :=
  ∃ a, ((a ∈ reads ∨ a ∈ writes) ∧ s.kindAt a = .device ∧ o = .refused (.deviceAccess a)) ∨
    (a ∈ writes ∧ s.kindAt a = .rom ∧ o = .refused (.romWrite a))

/-- The outcome of a step from `s` that reads and writes data at these addresses: a next state of which `P` holds where no
byte read is a device's and every byte written is RAM, as on the default map; otherwise a refusal at one of them. -/
def State.Accesses (s : State) (reads writes : List Word) (o : Host.Outcome State Fault Refusal) (P : State → Prop) :
    Prop :=
  ((∀ a ∈ reads, s.kindAt a ≠ .device) → (∀ a ∈ writes, s.kindAt a = .ram) → Completes o P) ∧
  (((∃ a ∈ reads, s.kindAt a = .device) ∨ ∃ a ∈ writes, s.kindAt a ≠ .ram) → s.RefusedAt reads writes o)

/-- The instruction whose bytes stand at PC (10_state.md R27, 30_encoding.md R90). -/
def State.instrAtPc (u : State) : Instr :=
  decodeBytes (u.byteAt u.pc) (u.byteAt (u.pc + 1#16)) (u.byteAt (u.pc + 2#16))

/-- The addresses of an instruction's own bytes when it stands at PC. -/
def State.bytesOf (u : State) (i : Instr) : List Word := (List.range i.length).map fun k => u.pc + BitVec.ofNat 16 k

/-- The outcome is that of fetching and executing the instruction at PC in `u`: exec of it where none of its bytes is a
device's, as on the default map; otherwise a refusal at one of them. -/
def State.ExecutesNext (u : State) (o : Host.Outcome State Fault Refusal) : Prop :=
  let bytes := u.bytesOf u.instrAtPc
  ((∀ a ∈ bytes, u.kindAt a ≠ .device) → o = exec u.instrAtPc u) ∧
  ((∃ a ∈ bytes, u.kindAt a = .device) → u.RefusedAt bytes [] o)

end Machine
end Sys2Proof
end

