-- ==== Sys2Proof/Certificates/Slice0/Obligations.lean ====
section
/-! DEFINITION. The statements for the provers. A number R<n> is a rule of spec/; "log n" is notes/assumptions/n.md.
Many of these rules carry the mark [decision: D<n>] or [derived]: there the statement is about the spec's own choice
(92_eei_decisions.md), which the model follows (log 20); the titles in OBLIGATIONS.json name the decisions. The address
map is any map: where a step accesses memory a statement says that it completes where the bytes it reads are no device's
and the bytes it writes are RAM, which on the default map is every byte (R68), and that it is refused otherwise (log 17). -/

open Sys2Proof Sys2Proof.Machine

/-! ## Encoding -/

/-- Every well-formed instruction, with every operand at every value, is read back from its encoding (R90 to R105). -/
def Obligations.DecodeInvertsEncode : Prop :=
  ∀ (i : Instr) (rest : List Byte), i.wf = true → decode (encode i ++ rest) = .ok (i, rest)

/-- What the decoder reads is well-formed and encodes to exactly the bytes it consumed (R105, R110). -/
def Obligations.EncodeInvertsDecode : Prop :=
  ∀ (bytes : List Byte) (i : Instr) (rest : List Byte),
    decode bytes = .ok (i, rest) → i.wf = true ∧ encode i ++ rest = bytes

/-- R90: the first byte alone decides the length, by the table of the rule. -/
def Obligations.FirstByteDecidesLength : Prop :=
  ∀ b0 b1 b2 : Byte,
    let n := b0.toNat
    let len := (decodeBytes b0 b1 b2).length
    ((n = 0x1F ∨ (0xD0 ≤ n ∧ n ≤ 0xD3) ∨ (0xF4 ≤ n ∧ n ≤ 0xF7)) → len = 3) ∧
    (((0xC0 ≤ n ∧ n ≤ 0xC3) ∨ (0xE3 ≤ n ∧ n ≤ 0xF3)) → len = 2) ∧
    (reservedByte n = false → unlistedByte n = false → ((n ≤ 0xBF ∧ n ≠ 0x1F) ∨ 0xF8 ≤ n) → len = 1)

/-- The bytes past an instruction's length have no part in what it is (R90). -/
def Obligations.BytesPastTheLengthAreNotRead : Prop :=
  ∀ b0 b1 b2 c1 c2 : Byte,
    ((decodeBytes b0 b1 b2).length = 1 → decodeBytes b0 c1 c2 = decodeBytes b0 b1 b2) ∧
    ((decodeBytes b0 b1 b2).length = 2 → decodeBytes b0 b1 c2 = decodeBytes b0 b1 b2)

/-- A few words of spec/95_test_vectors.md section 2 decode to the instructions listed there. -/
def Obligations.SampleWordsDecode : Prop :=
  decode [0x69#8] = .ok (.lod .cx .bx, []) ∧
  decode [0xC0#8, 0x0B#8] = .ok (.addR .cx .sp, []) ∧
  decode [0xC3#8, 0xF7#8] = .ok (.divI 15#4 .bx 3#2, []) ∧
  decode [0xD2#8, 0x1F#8, 0xFF#8] = .ok (.car 0#2 .bx 0xFFF#12, []) ∧
  decode [0xE8#8, 0xC0#8] = .ok (.cli true true false 0#5, []) ∧
  decode [0xF3#8, 0xA4#8] = .ok (.sri 2#2 .cx .bx .ax, []) ∧
  decode [0xF7#8, 0x01#8, 0x00#8] = .ok (.mvi .sp 0x0100#16, [])

/-- R92, R93, R94: the one-byte formats, with the selectors of R91: every operand is read from its place. -/
def Obligations.OneByteFormatsDecode : Prop :=
  ∀ (r m l : Reg) (rest : List Byte),
    let reads (b : Nat) (i : Instr) : Prop := decode (BitVec.ofNat 8 b :: rest) = .ok (i, rest)
    let n := r.number
    let ml := 4 * m.number + l.number
    reads 0x00 .nop ∧ reads 0x01 .int ∧ reads 0x02 .eni ∧ reads 0x03 .dei ∧ reads 0x04 .rst ∧ reads 0x05 .hlt ∧
    reads 0x08 .cmp ∧ reads 0x09 .ret ∧ reads (0x10 + n) (.pus r) ∧ reads (0x14 + n) (.pop r) ∧
    reads (0x24 + n) (.jmp r) ∧ reads (0x28 + n) (.jiz r) ∧ reads (0x2C + n) (.jnz r) ∧ reads (0x30 + n) (.jlt r) ∧
    reads (0x34 + n) (.jge r) ∧ reads (0x38 + n) (.jof r) ∧ reads (0x3C + n) (.jnf r) ∧ reads (0x80 + n) (.neg r) ∧
    reads (0x84 + n) (.not r) ∧ reads (0xF8 + n) (.inc r) ∧ reads (0xFC + n) (.dec r) ∧
    reads (0x50 + ml) (.mov m l) ∧ reads (0x60 + ml) (.lod m l) ∧ reads (0x70 + ml) (.sto m l) ∧
    reads (0x90 + ml) (.and m l) ∧ reads (0xA0 + ml) (.ior m l) ∧ reads (0xB0 + ml) (.xor m l)

/-- R95, R96, R97, R98, R99, R100: the two-byte formats: B1[7:4] = 0 is the register form of the eight two-form mnemonics,
anything else the immediate form, and every operand is read from its place. -/
def Obligations.TwoByteFormatsDecode : Prop :=
  ∀ (m k l : Reg) (v4 : BitVec 4) (v2 : BitVec 2) (v5 : BitVec 5) (v8 : Byte) (z c sg : Bool) (rest : List Byte),
    let reads (b0 b1 : Nat) (i : Instr) : Prop :=
      decode (BitVec.ofNat 8 b0 :: BitVec.ofNat 8 b1 :: rest) = .ok (i, rest)
    let ml := 4 * m.number + l.number
    let imm := 16 * v4.toNat + 4 * m.number + v2.toNat
    let x4 := 16 * v4.toNat + 4 * m.number + l.number
    let x2 := 64 * v2.toNat + 16 * m.number + 4 * k.number + l.number
    (reads 0xC0 ml (.addR m l) ∧ reads 0xC1 ml (.subR m l) ∧ reads 0xC2 ml (.mulR m l) ∧ reads 0xC3 ml (.divR m l) ∧
      reads 0xE4 ml (.rolR m l) ∧ reads 0xE5 ml (.rorR m l) ∧ reads 0xE6 ml (.shlR m l) ∧ reads 0xE7 ml (.shrR m l)) ∧
    (v4 ≠ 0#4 →
      reads 0xC0 imm (.addI v4 m v2) ∧ reads 0xC1 imm (.subI v4 m v2) ∧ reads 0xC2 imm (.mulI v4 m v2) ∧
      reads 0xC3 imm (.divI v4 m v2) ∧ reads 0xE4 imm (.rolI v4 m v2) ∧ reads 0xE5 imm (.rorI v4 m v2) ∧
      reads 0xE6 imm (.shlI v4 m v2) ∧ reads 0xE7 imm (.shrI v4 m v2)) ∧
    (reads 0xE3 v8.toNat (.irf v8) ∧ reads 0xE9 v8.toNat (.jmi v8) ∧ reads 0xEA v8.toNat (.jzi v8) ∧
      reads 0xEB v8.toNat (.jni v8) ∧ reads 0xEC v8.toNat (.jli v8) ∧ reads 0xED v8.toNat (.jgi v8) ∧
      reads 0xEE v8.toNat (.joi v8) ∧ reads 0xEF v8.toNat (.jui v8)) ∧
    reads 0xE8 (128 * z.toNat + 64 * c.toNat + 32 * sg.toNat + v5.toNat) (.cli z c sg v5) ∧
    reads 0xF0 x4 (.ldi v4 m l) ∧ reads 0xF1 x4 (.sti v4 m l) ∧ reads 0xF2 x2 (.lri v2 m k l) ∧
    reads 0xF3 x2 (.sri v2 m k l)

/-- R101, R103: the three-byte formats with a 16-bit operand, high byte first. -/
def Obligations.ThreeByteFormatsDecode : Prop :=
  ∀ (r : Reg) (b1 b2 : Byte) (rest : List Byte),
    let reads (b0 : Nat) (i : Instr) : Prop := decode (BitVec.ofNat 8 b0 :: b1 :: b2 :: rest) = .ok (i, rest)
    let operand : Word := BitVec.ofNat 16 (256 * b1.toNat + b2.toNat)
    reads 0x1F (.ljp operand) ∧ reads 0xD0 (.cal operand) ∧ reads 0xD1 (.rcl operand) ∧
    reads (0xF4 + r.number) (.mvi r operand)

/-- R109: an instruction with ignored bits set executes as with zeros; B1[7:4] of a two-form byte is not ignored but
selects the form. That B1[7:6] of 0xD2 and 0xD3 are ignored bits is the spec's own choice between two readings of its
source (R102, R106, decisions D28 and D29), which the model follows (log 12). -/
def Obligations.IgnoredBitsHaveNoEffect : Prop :=
  ∀ (b0 b1 b2 : Byte) (s : State),
    (twoFormByte b0.toNat = true → b1.toNat / 16 ≠ 0 →
      exec (decodeBytes b0 b1 b2) s = exec (decodeBytes b0 (b1 &&& 0xFC#8) b2) s) ∧
    (b0 = 0xE8#8 → exec (decodeBytes b0 b1 b2) s = exec (decodeBytes b0 (b1 &&& 0xE0#8) b2) s) ∧
    ((b0 = 0xD2#8 ∨ b0 = 0xD3#8) →
      exec (decodeBytes b0 b1 b2) s = exec (decodeBytes b0 (b1 &&& 0x3F#8) b2) s) ∧
    (twoFormByte b0.toNat = true → ((decodeBytes b0 b1 b2).isRegisterForm = true ↔ b1.toNat / 16 = 0))

/-! ## The instruction cycle -/

/-- At a boundary where the core is not asleep and no interrupt is due, a step runs the instruction its bytes decode
to, awake (R27; the order "environment first" is log 8), where the map lets those bytes be fetched (log 17). -/
def Obligations.StepRunsDecodedInstruction : Prop :=
  ∀ (s u : State) (i : Instr) (rest : List Byte),
    s.atBoundary u → ¬(u.halted = true ∧ u.rf = 0#8) → ¬(u.ie = true ∧ u.rf ≠ 0#8) →
    decode [u.byteAt u.pc, u.byteAt (u.pc + 1#16), u.byteAt (u.pc + 2#16)] = .ok (i, rest) →
    (∀ a ∈ u.bytesOf i, u.kindAt a ≠ .device) → step s = exec i { u with halted := false }

/-- R304, R305: at a boundary of a core that is not asleep, an interrupt is taken exactly when IE = 1 and RF is not 0,
before the next instruction is fetched, and leaves what R305 says; then IE is 0, so it is not taken again. Otherwise the
step fetches and executes the instruction at PC, awake; that it is refused where one of that instruction's bytes is a
device's is the model's choice (log 17). The environment acts first (log 8). -/
def Obligations.InterruptTakenExactlyWhenEnabledAndPending : Prop :=
  ∀ s u : State, s.atBoundary u → ¬(u.halted = true ∧ u.rf = 0#8) →
    ((u.ie = true ∧ u.rf ≠ 0#8) → step s = .next (u.entered u.pc) ∧ (u.entered u.pc).ie = false) ∧
    (¬(u.ie = true ∧ u.rf ≠ 0#8) → State.ExecutesNext { u with halted := false } (step s))

/-- With HALTED = 1 and RF = 0 no step of the core is enabled (R27, R314). How the model shows that is its own choice: once
the environment's schedule is over, the named stuck state `asleep` (log 9); and while the list of events (log 8) still holds
a silent entry, a next state in which that boundary has gone by and only the schedule is shorter (log 9). -/
def Obligations.SleepingCoreHasNoStep : Prop :=
  ∀ s : State, s.halted = true → s.rf = 0#8 →
    (s.events = [] → step s = .fault .asleep) ∧
    (∀ e es, s.events = e :: es → e &&& 0xE0#8 = 0#8 → step s = .next { s with events := es })

/-- R314: a raised flag wakes the core; with IE = 1 it enters the handler with IS.PC the address after HLT, with IE = 0
it goes on there with the flag pending; that it is refused where a byte of the instruction there is a device's is the
model's choice (log 17). The environment acts first (log 8). -/
def Obligations.RaisedFlagWakesCore : Prop :=
  ∀ (s : State) (e : Byte) (es : List Byte),
    s.halted = true → s.rf = 0#8 → s.events = e :: es → e &&& 0xE0#8 ≠ 0#8 →
    let u : State := { s with events := es, rf := e &&& 0xE0#8, halted := false }
    (s.ie = true → step s = .next (u.entered s.pc)) ∧ (s.ie = false → u.ExecutesNext (step s))

/-- Every step keeps the invariant: bits 4:0 of RS and RF stay 0 (R28, R32), memory keeps its canonical form. -/
def Obligations.StepKeepsInvariant : Prop :=
  ∀ s t : State, s.Inv → step s = .next t → t.Inv

/-- The invariant holds right after reset, on every platform. -/
def Obligations.ResetStateHasInvariant : Prop := State.reset.Inv ∧ ∀ p : Platform, (State.resetOn p).Inv

/-- R41, R42: what reset leaves where the spec gives a value, on every platform: PC is the platform's RESET_PC; and on the
default one (State.reset) RESET_PC is 0x0000 and no address is anything but RAM (R68; logs 7, 17). -/
def Obligations.ResetGivesPcIeHalted : Prop :=
  (∀ p : Platform, (State.resetOn p).pc = p.resetPc ∧ (State.resetOn p).platform = p ∧
    (State.resetOn p).ie = false ∧ (State.resetOn p).halted = false ∧
    (State.resetOn p).rs &&& 0x1F#8 = 0#8 ∧ (State.resetOn p).rf &&& 0x1F#8 = 0#8) ∧
  State.reset = State.resetOn State.reset.platform ∧ State.reset.pc = 0x0000#16 ∧ ∀ a, State.reset.kindAt a = .ram

/-- A step is refused only at an address of the instruction it fetches, reads or writes that the map gives to a device, or
to a ROM it writes, so on the default map never (log 17); and it faults only asleep with no event to come, or on a reserved
or an unlisted byte at the program counter (R107, R108, R300; log 9, log 11). -/
def Obligations.StepStopsOnlyOnNamedGrounds : Prop :=
  ∀ s u : State, s.atBoundary u →
    (∀ r, step s = .refused r → u.platform.memMap ≠ [] ∧
      let i := u.instrAtPc
      u.RefusedAt (u.bytesOf i ++ i.reads u) (i.writes u) (step s)) ∧
    (∀ f, step s = .fault f →
      (f = .asleep ∧ s.halted = true ∧ s.rf = 0#8 ∧ s.events = []) ∨
      (f = .reservedOpcode ∧ reservedByte (u.byteAt u.pc).toNat = true) ∨
      (f = .unlistedOpcode ∧ unlistedByte (u.byteAt u.pc).toNat = true))

/-- R107, R108: executing a reserved or unlisted first byte stops with the fault the rule names, whatever follows it; and
so does each of the fifteen rows of the opcode table. -/
def Obligations.ReservedAndUnlistedBytesFault : Prop :=
  ∀ s : State,
    (∀ b0 b1 b2 : Byte,
      (reservedByte b0.toNat = true → exec (decodeBytes b0 b1 b2) s = .fault .reservedOpcode) ∧
      (unlistedByte b0.toNat = true → exec (decodeBytes b0 b1 b2) s = .fault .unlistedOpcode)) ∧
    (∀ (l1 : BitVec 1) (l2 : BitVec 2) (l3 : BitVec 3) (l4 : BitVec 4),
      (∀ i ∈ [Instr.reserved0A l1, .reserved0C l2, .reserved18 l2, .reserved1C l1, .reserved1E, .reserved40 l4,
          .reserved88 l3], exec i s = .fault .reservedOpcode) ∧
      (∀ i ∈ [Instr.unlisted06 l1, .unlisted20 l2, .unlistedC4 l2, .unlistedC8 l3, .unlistedD4 l2, .unlistedD8 l3,
          .unlistedE0 l1, .unlistedE2], exec i s = .fault .unlistedOpcode))

/-! ## Rules about all instructions -/

/-- There is no synchronous exception (R300): every listed instruction completes in every state, where the map lets it
access what it accesses (log 17), and none but INT (and RST, which leaves IS unspecified) saves anything in IS. The clause
on the environment's schedule, RST among the instructions, is the model's (logs 8 and 4). That DIV by 0
(R196, decision D20; log 10) and RET before any entry (R310, decision D42; log 3, after an RST log 4) complete as well is
the model's choice where the spec allows a fault too. -/
def Obligations.EveryListedInstructionCompletes : Prop :=
  ∀ (i : Instr) (s : State), i.isListed = true → s.Accesses (i.reads s) (i.writes s) (exec i s) fun t =>
    t.events = s.events ∧ t.platform = s.platform ∧ (i ≠ .int → i ≠ .rst → t.intState = s.intState)

/-- R33: ENI, HLT and RET clear all of RF and no other instruction changes it (RST leaves it unspecified); only IRF reads
it, and INT copies it into IS: with another value in RF, every other instruction does the same to all else. -/
def Obligations.RfClearedByThreeAndReadByIrf : Prop :=
  ∀ (i : Instr) (s t : State), exec i s = .next t →
    let clears : Prop := i = .eni ∨ i = .hlt ∨ i = .ret
    (i ≠ .rst → (clears → t.rf = 0#8) ∧ (¬clears → t.rf = s.rf)) ∧
    ((∀ m, i ≠ .irf m) → i ≠ .int → ∀ v : Byte, ∃ w : Byte, exec i { s with rf := v } = .next { t with rf := w }) ∧
    (i = .int → t.intState.rf = s.rf)

/-- R31, the dashes of its table: an instruction outside the table keeps RS; the bitwise family keeps C; CMP and IRF keep
C and S. -/
def Obligations.RsKeptWhereTheTableHasDashes : Prop :=
  ∀ (i : Instr) (s t : State), exec i s = .next t →
    (i.writesRs = false → t.rs = s.rs) ∧
    (∀ a b, (i = .neg a ∨ i = .not a ∨ i = .and a b ∨ i = .ior a b ∨ i = .xor a b) →
      t.rs.getLsbD 6 = s.rs.getLsbD 6) ∧
    (∀ m, (i = .cmp ∨ i = .irf m) → t.rs.getLsbD 6 = s.rs.getLsbD 6 ∧ t.rs.getLsbD 5 = s.rs.getLsbD 5)

/-- The new PC of every instruction, of interrupt entry and of reset is that of the table of R26, and an instruction that
the rule does not name as a reader of PC does the same to all else whatever PC is; interrupt entry copies PC into IS. What
the table's entries are worth rests on the spec's decisions, which the model follows (log 20): D7 (the places of the
flags), D26 (the base of a jump), D27 (the condition of each immediate jump), D25 (the sign extension of its offset), D24
(the zero extension of the offset of CAR and RCR), D31 (CAR's target is read before the pushes), D32 (the pop of RCL and
RCR, with D3 and D5), and D28 (the codes by which CAR and RCR are instructions of their own; log 12). The entry
clause rests on D36 and D37 and on the order at the boundary (log 8), and reset on RESET_PC (log 7). -/
def Obligations.PcWrittenAndReadAsTheTableSays : Prop :=
  (∀ (i : Instr) (s t : State), exec i s = .next t →
    t.pc = i.pcAfter s ∧
    (i.readsPc = false → ∀ p : Word, exec i { s with pc := p } = .next { t with pc := i.pcAfter { s with pc := p } })) ∧
  (∀ s u : State, s.atBoundary u → u.ie = true → u.rf ≠ 0#8 →
    Completes (step s) fun t => t.pc = Config.intVector ∧ t.intState.pc = u.pc) ∧
  ∀ p : Platform, (State.resetOn p).pc = p.resetPc

/-- R61: only STO, STI, SRI, PUS, CAL and CAR change memory, each only the bytes the table gives it (`Instr.writes`, empty
for every other instruction); interrupt entry, whether INT or one that the environment brings about, and RET do not touch
it. -/
def Obligations.OnlyStoringInstructionsChangeMemory : Prop :=
  (∀ (i : Instr) (s t : State), exec i s = .next t → ∀ a, a ∉ i.writes s → t.byteAt a = s.byteAt a) ∧
  (∀ s u : State, s.atBoundary u → u.ie = true → u.rf ≠ 0#8 →
    Completes (step s) fun t => ∀ a, t.byteAt a = s.byteAt a)

/-- R22: a general register that an instruction neither selects nor uses implicitly is unchanged. -/
def Obligations.RegistersOutsideDestinationsKept : Prop :=
  ∀ (i : Instr) (s t : State), exec i s = .next t → ∀ r, r ∉ i.destinations → t.reg r = s.reg r

/-- R37, R38: which instructions write IE and HALTED, and what. -/
def Obligations.IeAndHaltedWriters : Prop :=
  ∀ (i : Instr) (s t : State), exec i s = .next t →
    (t.ie = if i = .eni then true else if i = .dei ∨ i = .int ∨ i = .rst then false
      else if i = .ret then s.intState.ie else s.ie) ∧
    (t.halted = if i = .hlt then true else if i = .int ∨ i = .rst then false else s.halted)

/-- R35, R310: IS keeps its contents but for interrupt entry, INT and RST, and no instruction but INT and RET does
anything else when IS holds other contents: all others keep IS, and RST, which puts unspecified contents there, ends in the
same state whatever it held. Of INT, IntEntersHandler says that it copies nothing out of IS. -/
def Obligations.IntStateUsedOnlyByEntryRetAndReset : Prop :=
  (∀ s u t : State, s.atBoundary u → step s = .next t →
    t.intState = s.intState ∨ t.intState = (u.entered u.pc).intState ∨
    (u.instrAtPc = .int ∧ t.intState = (u.entered (u.pc + 1#16)).intState) ∨ u.instrAtPc = .rst) ∧
  (∀ (i : Instr) (s t : State), exec i s = .next t → i ≠ .int → i ≠ .ret → i ≠ .rst →
    ∀ v : IntState, exec i { s with intState := v } = .next { t with intState := v }) ∧
  (∀ (s : State) (v : IntState), exec .rst { s with intState := v } = exec .rst s)

/-! ## Control -/

/-- R130: NOP, the byte 0x00, does nothing but advance. -/
def Obligations.NopOnlyAdvances : Prop :=
  decode [0x00#8] = .ok (.nop, []) ∧ ∀ s : State, exec .nop s = .next { s with pc := s.pc + 1#16 }

/-- R131, R307: INT enters the handler whatever IE and RF are, saves the address after INT, and leaves RF alone. -/
def Obligations.IntEntersHandler : Prop :=
  ∀ s : State, exec .int s = .next (s.entered (s.pc + 1#16)) ∧ (s.entered (s.pc + 1#16)).rf = s.rf ∧
    (s.entered (s.pc + 1#16)).rs = s.rs ∧ (s.entered (s.pc + 1#16)).intState.ie = s.ie

/-- R132, R133: ENI, 0x02, sets IE and clears RF, and no interrupt is taken at the boundary after it, but the next
instruction executed, unless the environment raises a flag there (log 8); that this is refused where a byte of that
instruction is a device's is the model's choice (log 17). DEI, 0x03, clears IE and keeps RF. -/
def Obligations.EniSetsIeAndDeiClearsIt : Prop :=
  decode [0x02#8] = .ok (.eni, []) ∧ decode [0x03#8] = .ok (.dei, []) ∧
  ∀ s : State, exec .eni s = .next { s with ie := true, rf := 0#8, pc := s.pc + 1#16 } ∧
    exec .dei s = .next { s with ie := false, pc := s.pc + 1#16 } ∧
    ∀ t u, exec .eni s = .next t → s.halted = false → t.atBoundary u → u.rf = t.rf → u.ExecutesNext (step t)

/-- R135: HLT clears RF, sleeps, and PC is the address after it. -/
def Obligations.HltSleepsWithRfCleared : Prop :=
  ∀ s : State, exec .hlt s = .next { s with rf := 0#8, halted := true, pc := s.pc + 1#16 }

/-- R134, R351: RST gives PC (the platform's RESET_PC, log 7), IE and HALTED their reset values and bits 4:0 of RS and RF
are 0; memory is unchanged. The rest is unspecified and nothing is said of it; the schedule of the environment and the
platform are kept (log 4). -/
def Obligations.RstResetsAndKeepsMemory : Prop :=
  ∀ s : State, Completes (exec .rst s) fun t =>
    t.pc = s.platform.resetPc ∧ t.ie = false ∧ t.halted = false ∧ t.rs &&& 0x1F#8 = 0#8 ∧ t.rf &&& 0x1F#8 = 0#8 ∧
    (∀ a, t.byteAt a = s.byteAt a) ∧ t.events = s.events ∧ t.platform = s.platform

/-- R136: CMP sets Z to whether AX and BX hold the same 16 bits, and writes nothing else. -/
def Obligations.CmpTellsEqualityOnly : Prop :=
  ∀ s : State, Completes (exec .cmp s) fun t =>
    t.flagsAre (decide (s.ax.toNat = s.bx.toNat)) (s.rs.getLsbD 6) (s.rs.getLsbD 5) ∧
    t.pc = s.pc + 1#16 ∧ s.frame t [] []

/-- R137, R308: RET restores the registers, the flags, IE and PC from IS, clears RF and keeps IS and memory, and no
interrupt is taken at the boundary after it, but the next instruction executed, unless the environment raises a flag there
(log 8); that this is refused where a byte of that instruction is a device's is the model's choice (log 17). Bits 4:0
of RS are 0 whatever IS.RS holds there (R28; log 19). -/
def Obligations.RetRestoresFromIntState : Prop :=
  ∀ s : State, Completes (exec .ret s) fun t =>
    t.ax = s.intState.ax ∧ t.bx = s.intState.bx ∧ t.cx = s.intState.cx ∧ t.sp = s.intState.sp ∧
    t.rs = s.intState.rs &&& 0xE0#8 ∧ t.ie = s.intState.ie ∧ t.rf = 0#8 ∧ t.pc = s.intState.pc ∧
    t.intState = s.intState ∧ (∀ a, t.byteAt a = s.byteAt a) ∧
    t.halted = s.halted ∧ t.events = s.events ∧ t.draws = s.draws ∧ t.platform = s.platform ∧
    (s.halted = false → ∀ u, t.atBoundary u → u.rf = t.rf → u.ExecutesNext (step t))

/-- A handler entered by INT that keeps IS and ends in RET gives the program back its registers, flags and IE, at the
instruction after INT (R131, R308). -/
def Obligations.RetAfterIntRestoresProgram : Prop :=
  ∀ s t u v : State, exec .int s = .next t → u.intState = t.intState → exec .ret u = .next v →
    (∀ r, v.reg r = s.reg r) ∧ v.pc = s.pc + 1#16 ∧ v.ie = s.ie ∧ v.rf = 0#8 ∧ (s.Inv → v.rs = s.rs) ∧
    (∀ a, v.byteAt a = u.byteAt a)

/-! ## Stack and jumps -/

/-- R150: PUS stores the register at SP, high byte first, and then SP goes down by 2; PUS SP stores the old SP. -/
def Obligations.PusStoresThenDecrementsSp : Prop :=
  ∀ (r : Reg) (s : State), s.Accesses [] (wordAt s.sp) (exec (.pus r) s) fun t =>
    t.byteAt s.sp ++ t.byteAt (s.sp + 1#16) = s.reg r ∧ t.sp = s.sp - 2#16 ∧
    t.pc = s.pc + 1#16 ∧ t.rs = s.rs ∧ s.frame t [.sp] (wordAt s.sp)

/-- R151: POP adds 2 to SP and loads the register from there; POP SP ends with the loaded value. -/
def Obligations.PopIncrementsSpThenLoads : Prop :=
  ∀ (r : Reg) (s : State), s.Accesses (wordAt (s.sp + 2#16)) [] (exec (.pop r) s) fun t =>
    t.reg r = s.byteAt (s.sp + 2#16) ++ s.byteAt (s.sp + 3#16) ∧ (r ≠ .sp → t.sp = s.sp + 2#16) ∧
    t.pc = s.pc + 1#16 ∧ t.rs = s.rs ∧ s.frame t [r, .sp] []

/-- PUS r followed by POP r restores r and SP (R151), for every r. -/
def Obligations.PopAfterPusRestores : Prop :=
  ∀ (r : Reg) (s t u : State), exec (.pus r) s = .next t → exec (.pop r) t = .next u → ∀ q, u.reg q = s.reg q

/-- R152: LJP, 0x1F and the address high byte first, goes to its operand, and nothing but PC changes. -/
def Obligations.LjpGoesToItsOperand : Prop :=
  ∀ (addr16 : Word) (s : State),
    decode [0x1F#8, addr16.extractLsb' 8 8, addr16.extractLsb' 0 8] = .ok (.ljp addr16, []) ∧
    exec (.ljp addr16) s = .next { s with pc := addr16 }

/-- R153 to R159: JMP goes to npc plus its register; the conditional jumps do so when their flag has the value named, and
fall through otherwise. Nothing but PC changes. -/
def Obligations.RegisterJumpsGoToNpcPlusRegister : Prop :=
  ∀ (r : Reg) (s : State),
    let go (c : Bool) : Host.Outcome State Fault Refusal :=
      .next { s with pc := if c then s.pc + 1#16 + s.reg r else s.pc + 1#16 }
    exec (.jmp r) s = go true ∧
    exec (.jiz r) s = go (s.rs.getLsbD 7) ∧ exec (.jnz r) s = go (!s.rs.getLsbD 7) ∧
    exec (.jlt r) s = go (s.rs.getLsbD 5) ∧ exec (.jge r) s = go (!s.rs.getLsbD 5) ∧
    exec (.jof r) s = go (s.rs.getLsbD 6) ∧ exec (.jnf r) s = go (!s.rs.getLsbD 6)

/-! ## Moves, loads and stores -/

/-- R170, R270: MOV copies rL to rM, MVI puts its constant into r; no flag and nothing else but PC changes. -/
def Obligations.MovAndMviWriteOneRegister : Prop :=
  ∀ (rM rL : Reg) (imm16 : Word) (s : State),
    (Completes (exec (.mov rM rL) s) fun t =>
      t.reg rM = s.reg rL ∧ t.pc = s.pc + 1#16 ∧ t.rs = s.rs ∧ s.frame t [rM] []) ∧
    (Completes (exec (.mvi rM imm16) s) fun t =>
      t.reg rM = imm16 ∧ t.pc = s.pc + 3#16 ∧ t.rs = s.rs ∧ s.frame t [rM] [])

/-- R171, R260, R262: the loads put the two bytes at their address, high byte first, into rM; immediates are zero-extended
and the sums wrap. -/
def Obligations.LoadsReadTwoBytesBigEndian : Prop :=
  ∀ (rM rMid rL : Reg) (imm4 : BitVec 4) (imm2 : BitVec 2) (s : State),
    let loaded (ea : Word) (len : Word) (t : State) : Prop :=
      t.reg rM = s.byteAt ea ++ s.byteAt (ea + 1#16) ∧ t.pc = s.pc + len ∧ t.rs = s.rs ∧ s.frame t [rM] []
    let loads (i : Instr) (ea : Word) (len : Word) : Prop := s.Accesses (wordAt ea) [] (exec i s) (loaded ea len)
    loads (.lod rM rL) (s.reg rL) 1#16 ∧
    loads (.ldi imm4 rM rL) (s.reg rL + BitVec.ofNat 16 imm4.toNat) 2#16 ∧
    loads (.lri imm2 rM rMid rL) (s.reg rL + s.reg rMid + BitVec.ofNat 16 imm2.toNat) 2#16

/-- R172, R261, R263: the stores put rL, high byte first, into the two bytes at their address and change nothing else but
PC; the addresses are those the meanings compute. -/
def Obligations.StoresWriteTwoBytesBigEndian : Prop :=
  ∀ (rM rMid rL : Reg) (imm4 : BitVec 4) (imm2 : BitVec 2) (s : State),
    let stored (ea : Word) (len : Word) (t : State) : Prop :=
      t.byteAt ea = (s.reg rL).extractLsb' 8 8 ∧ t.byteAt (ea + 1#16) = (s.reg rL).extractLsb' 0 8 ∧
      t.pc = s.pc + len ∧ t.rs = s.rs ∧ s.frame t [] (wordAt ea)
    let stores (i : Instr) (ea : Word) (len : Word) : Prop := s.Accesses [] (wordAt ea) (exec i s) (stored ea len)
    stores (.sto rM rL) (s.reg rM) 1#16 ∧
    stores (.sti imm4 rM rL) (s.eaImm4 rM imm4) 2#16 ∧
    s.eaImm4 rM imm4 = s.reg rM + BitVec.ofNat 16 imm4.toNat ∧
    stores (.sri imm2 rM rMid rL) (s.eaImm2 rMid rM imm2) 2#16 ∧
    s.eaImm2 rMid rM imm2 = s.reg rMid + s.reg rM + BitVec.ofNat 16 imm2.toNat

/-- A load from the address stored to reads the value back; a load from the address one higher has the low byte of the
stored value as its high byte (R62, R63, R70). -/
def Obligations.LoadAfterStoreReadsItBack : Prop :=
  ∀ (a d b c : Reg) (s t u : State), exec (.sto a d) s = .next t → exec (.lod b c) t = .next u →
    (s.reg c = s.reg a → u.reg b = s.reg d) ∧
    (s.reg c = s.reg a + 1#16 → (u.reg b).extractLsb' 8 8 = (s.reg d).extractLsb' 0 8)

/-- A store into the bytes of the next instruction is seen by its fetch (R73): where no interrupt is due at the boundary
between, whatever else the environment does there (log 8), the next step executes what was stored; that it is refused where
a byte of the stored instruction is a device's is the model's choice (log 17). -/
def Obligations.StoreIsSeenByTheNextFetch : Prop :=
  ∀ (rM rL : Reg) (s t : State), exec (.sto rM rL) s = .next t → s.reg rM = s.pc + 1#16 →
    s.halted = false → ∀ u, t.atBoundary u → ¬(u.ie = true ∧ u.rf ≠ 0#8) →
    u.instrAtPc =
      decodeBytes ((s.reg rL).extractLsb' 8 8) ((s.reg rL).extractLsb' 0 8) (s.byteAt (s.pc + 3#16)) ∧
    u.ExecutesNext (step t)

/-! ## Bitwise -/

/-- R180, R181, R185: NEG is 0 - r modulo 2^16, NOT inverts every bit; Z and S from the result, C kept. -/
def Obligations.NegAndNotResultsAndFlags : Prop :=
  ∀ (r : Reg) (s : State),
    (Completes (exec (.neg r) s) fun t =>
      (t.reg r).toNat = (65536 - (s.reg r).toNat) % 65536 ∧ t.flagsOf (t.reg r).toNat (s.rs.getLsbD 6) ∧
      t.pc = s.pc + 1#16 ∧ s.frame t [r] []) ∧
    (Completes (exec (.not r) s) fun t =>
      (t.reg r).toNat = 65535 - (s.reg r).toNat ∧ t.flagsOf (t.reg r).toNat (s.rs.getLsbD 6) ∧
      t.pc = s.pc + 1#16 ∧ s.frame t [r] [])

/-- R182, R183, R184, R185: AND, IOR and XOR bit by bit into rM; Z and S from the result, C kept. -/
def Obligations.AndIorXorResultsAndFlags : Prop :=
  ∀ (rM rL : Reg) (s : State),
    let done (op : Bool → Bool → Bool) (t : State) : Prop :=
      (∀ k, k < 16 → (t.reg rM).getLsbD k = op ((s.reg rM).getLsbD k) ((s.reg rL).getLsbD k)) ∧
      t.flagsOf (t.reg rM).toNat (s.rs.getLsbD 6) ∧ t.pc = s.pc + 1#16 ∧ s.frame t [rM] []
    Completes (exec (.and rM rL) s) (done Bool.and) ∧ Completes (exec (.ior rM rL) s) (done Bool.or) ∧
    Completes (exec (.xor rM rL) s) (done Bool.xor)

/-! ## Arithmetic -/

/-- R191: ADD, both forms: the sum modulo 2^16, C the carry out of bit 15. -/
def Obligations.AddResultAndFlags : Prop :=
  ∀ s : State,
    let done (d : Reg) (b : Nat) (t : State) : Prop :=
      let n := (s.reg d).toNat + b
      (t.reg d).toNat = n % 65536 ∧ t.flagsOf (n % 65536) (decide (65536 ≤ n)) ∧ t.pc = s.pc + 2#16 ∧ s.frame t [d] []
    (∀ rM rL, Completes (exec (.addR rM rL) s) (done rM (s.reg rL).toNat)) ∧
    (∀ imm4 r ign, Completes (exec (.addI imm4 r ign) s) (done r imm4.toNat))

/-- R192: SUB, both forms: the difference modulo 2^16, C the borrow. -/
def Obligations.SubResultAndFlags : Prop :=
  ∀ s : State,
    let done (d : Reg) (b : Nat) (t : State) : Prop :=
      let a := (s.reg d).toNat
      (t.reg d).toNat = (65536 + a - b) % 65536 ∧ t.flagsOf ((65536 + a - b) % 65536) (decide (a < b)) ∧
      t.pc = s.pc + 2#16 ∧ s.frame t [d] []
    (∀ rM rL, Completes (exec (.subR rM rL) s) (done rM (s.reg rL).toNat)) ∧
    (∀ imm4 r ign, Completes (exec (.subI imm4 r ign) s) (done r imm4.toNat))

/-- R193: MUL, both forms: the low 16 bits of the product, C when the product does not fit 16 bits. -/
def Obligations.MulResultAndFlags : Prop :=
  ∀ s : State,
    let done (d : Reg) (b : Nat) (t : State) : Prop :=
      let n := (s.reg d).toNat * b
      (t.reg d).toNat = n % 65536 ∧ t.flagsOf (n % 65536) (decide (65536 ≤ n)) ∧ t.pc = s.pc + 2#16 ∧ s.frame t [d] []
    (∀ rM rL, Completes (exec (.mulR rM rL) s) (done rM (s.reg rL).toNat)) ∧
    (∀ imm4 r ign, Completes (exec (.mulI imm4 r ign) s) (done r imm4.toNat))

/-- R194: DIV by a divisor that is not 0, both forms: the unsigned quotient, C cleared. -/
def Obligations.DivResultAndFlags : Prop :=
  ∀ s : State,
    let done (d : Reg) (b : Nat) (t : State) : Prop :=
      let q := (s.reg d).toNat / b
      (t.reg d).toNat = q ∧ t.flagsOf q false ∧ t.pc = s.pc + 2#16 ∧ s.frame t [d] []
    (∀ rM rL, s.reg rL ≠ 0#16 → Completes (exec (.divR rM rL) s) (done rM (s.reg rL).toNat)) ∧
    (∀ imm4 r ign, imm4 ≠ 0#4 → Completes (exec (.divI imm4 r ign) s) (done r imm4.toNat))

/-- R196: DIV by a register that holds 0 goes on; the destination and Z, C, S are the parameter DIV0 of the dividend, of
which nothing is assumed. -/
def Obligations.DivByZeroLeavesDiv0AndGoesOn : Prop :=
  ∀ (rM rL : Reg) (s : State), s.reg rL = 0#16 → Completes (exec (.divR rM rL) s) fun t =>
    let a := s.reg rM
    t.reg rM = Config.div0Result a ∧ t.flagsAre (Config.div0Z a) (Config.div0C a) (Config.div0S a) ∧
    t.pc = s.pc + 2#16 ∧ s.frame t [rM] []

/-! ## Subroutines -/

/-- R210, R212: CAL and CAR push the address after them, then SP as that push left it, and go to the address, which for
CAR is the register of before plus the zero-extended offset. -/
def Obligations.CallsPushReturnAddressAndSp : Prop :=
  ∀ (r : Reg) (addr16 : Word) (ign : BitVec 2) (off12 : BitVec 12) (s : State),
    let pushed : List Word := wordAt s.sp ++ wordAt (s.sp - 2#16)
    let called (target : Word) (t : State) : Prop :=
      t.byteAt s.sp ++ t.byteAt (s.sp + 1#16) = s.pc + 3#16 ∧
      t.byteAt (s.sp - 2#16) ++ t.byteAt (s.sp - 1#16) = s.sp - 2#16 ∧
      t.sp = s.sp - 4#16 ∧ t.pc = target ∧ t.rs = s.rs ∧ s.frame t [.sp] pushed
    s.Accesses [] pushed (exec (.cal addr16) s) (called addr16) ∧
    s.Accesses [] pushed (exec (.car ign r off12) s) (called (s.reg r + BitVec.ofNat 16 off12.toNat))

/-- R211, R213: RCL and RCR set SP to the address, add 2, and pop PC from there. -/
def Obligations.ReturnsPopPcAboveTheAddress : Prop :=
  ∀ (r : Reg) (addr16 : Word) (ign : BitVec 2) (off12 : BitVec 12) (s : State),
    let returned (addr : Word) (t : State) : Prop :=
      t.sp = addr + 2#16 ∧ t.pc = s.byteAt (addr + 2#16) ++ s.byteAt (addr + 3#16) ∧ t.rs = s.rs ∧
      s.frame t [.sp] []
    let returns (i : Instr) (addr : Word) : Prop :=
      s.Accesses (wordAt (addr + 2#16)) [] (exec i s) (returned addr)
    returns (.rcl addr16) addr16 ∧ returns (.rcr ign r off12) (s.reg r + BitVec.ofNat 16 off12.toNat)

/-- R214: the three ways to return from CAL or CAR: each ends at the return address with the caller's SP, from any state
of the callee, on the same platform, in which the pushed bytes stand and, for the first two, the stack is balanced. -/
def Obligations.ThreeWaysToReturnFromACall : Prop :=
  ∀ (i : Instr) (s t u : State) (r : Reg) (ign : BitVec 2),
    ((∃ a, i = .cal a) ∨ ∃ g q o, i = .car g q o) → exec i s = .next t →
    (∀ a ∈ [s.sp, s.sp + 1#16, s.sp - 2#16, s.sp - 1#16], u.byteAt a = t.byteAt a) → u.platform = t.platform →
    let back (v : State) : Prop := v.sp = s.sp ∧ v.pc = s.pc + 3#16
    (u.sp = s.sp - 4#16 → Completes (exec (.rcr ign .sp 2#12) u) back) ∧
    (u.sp = s.sp - 4#16 → Completes (exec (.pop r) u) fun w => Completes (exec (.rcr ign r 0#12) w) back) ∧
    Completes (exec (.rcl (s.sp - 2#16)) u) back

/-! ## IRF and shifts -/

/-- R220: IRF sets Z to whether a flag of RF under the mask is raised; C, S and RF are kept. -/
def Obligations.IrfTellsWhetherAMaskedFlagIsRaised : Prop :=
  ∀ (mask8 : Byte) (s : State), Completes (exec (.irf mask8) s) fun t =>
    (t.rs.getLsbD 7 = true ↔ ∃ k, k < 8 ∧ s.rf.getLsbD k = true ∧ mask8.getLsbD k = true) ∧
    t.rs.getLsbD 6 = s.rs.getLsbD 6 ∧ t.rs.getLsbD 5 = s.rs.getLsbD 5 ∧ t.rs &&& 0x1F#8 = 0#8 ∧
    t.pc = s.pc + 2#16 ∧ s.frame t [] []

/-- R222, R223: the rotates, both forms, count 0 to 15: the 16 bits go around among themselves, C is the last bit that
went around and is kept for count 0. -/
def Obligations.RotatesMoveBitsAround : Prop :=
  ∀ s : State,
    let left (d : Reg) (n : Nat) (t : State) : Prop :=
      s.shifted t d n (fun k => (s.reg d).getLsbD ((k + 16 - n) % 16)) ((t.reg d).getLsbD 0)
    let right (d : Reg) (n : Nat) (t : State) : Prop :=
      s.shifted t d n (fun k => (s.reg d).getLsbD ((k + n) % 16)) ((t.reg d).getLsbD 15)
    (∀ rM rL, Completes (exec (.rolR rM rL) s) (left rM ((s.reg rL).toNat % 16))) ∧
    (∀ imm4 r ign, Completes (exec (.rolI imm4 r ign) s) (left r imm4.toNat)) ∧
    (∀ rM rL, Completes (exec (.rorR rM rL) s) (right rM ((s.reg rL).toNat % 16))) ∧
    (∀ imm4 r ign, Completes (exec (.rorI imm4 r ign) s) (right r imm4.toNat))

/-- R224, R225: the shifts, both forms, count 0 to 15: zeros enter, C is the last bit shifted out and is kept for count
0. -/
def Obligations.ShiftsFillWithZeros : Prop :=
  ∀ s : State,
    let left (d : Reg) (n : Nat) (t : State) : Prop :=
      s.shifted t d n (fun k => decide (n ≤ k) && (s.reg d).getLsbD (k - n)) ((s.reg d).getLsbD (16 - n))
    let right (d : Reg) (n : Nat) (t : State) : Prop :=
      s.shifted t d n (fun k => decide (k + n < 16) && (s.reg d).getLsbD (k + n)) ((s.reg d).getLsbD (n - 1))
    (∀ rM rL, Completes (exec (.shlR rM rL) s) (left rM ((s.reg rL).toNat % 16))) ∧
    (∀ imm4 r ign, Completes (exec (.shlI imm4 r ign) s) (left r imm4.toNat)) ∧
    (∀ rM rL, Completes (exec (.shrR rM rL) s) (right rM ((s.reg rL).toNat % 16))) ∧
    (∀ imm4 r ign, Completes (exec (.shrI imm4 r ign) s) (right r imm4.toNat))

/-! ## CLI and immediate jumps -/

/-- R240: CLI clears the flags whose mask bit is 1 and keeps the others; nothing else but PC changes. -/
def Obligations.CliClearsTheSelectedFlags : Prop :=
  ∀ (mZ mC mS : Bool) (ign : BitVec 5) (s : State), Completes (exec (.cli mZ mC mS ign) s) fun t =>
    t.flagsAre (if mZ then false else s.rs.getLsbD 7) (if mC then false else s.rs.getLsbD 6)
      (if mS then false else s.rs.getLsbD 5) ∧
    t.pc = s.pc + 2#16 ∧ s.frame t [] []

/-- R241 to R247: JMI goes to npc plus its signed offset; the conditional ones do so when their flag has the value named,
and fall through otherwise. Nothing but PC changes. -/
def Obligations.ImmediateJumpsGoToNpcPlusOffset : Prop :=
  ∀ (off8 : Byte) (s : State),
    let go (c : Bool) : Host.Outcome State Fault Refusal :=
      .next { s with pc := if c then s.pc + 2#16 + BitVec.ofInt 16 off8.toInt else s.pc + 2#16 }
    exec (.jmi off8) s = go true ∧
    exec (.jzi off8) s = go (s.rs.getLsbD 7) ∧ exec (.jni off8) s = go (!s.rs.getLsbD 7) ∧
    exec (.jli off8) s = go (s.rs.getLsbD 5) ∧ exec (.jgi off8) s = go (!s.rs.getLsbD 5) ∧
    exec (.joi off8) s = go (s.rs.getLsbD 6) ∧ exec (.jui off8) s = go (!s.rs.getLsbD 6)

/-! ## Increment and decrement -/

/-- R271, R272: INC and DEC: one up or down modulo 2^16, with the flags of ADD and SUB. -/
def Obligations.IncAndDecResultsAndFlags : Prop :=
  ∀ (r : Reg) (s : State),
    let a := (s.reg r).toNat
    (Completes (exec (.inc r) s) fun t =>
      (t.reg r).toNat = (a + 1) % 65536 ∧ t.flagsOf ((a + 1) % 65536) (decide (a = 65535)) ∧
      t.pc = s.pc + 1#16 ∧ s.frame t [r] []) ∧
    (Completes (exec (.dec r) s) fun t =>
      (t.reg r).toNat = (a + 65535) % 65536 ∧ t.flagsOf ((a + 65535) % 65536) (decide (a = 0)) ∧
      t.pc = s.pc + 1#16 ∧ s.frame t [r] [])
end

