-- ==== Sys2Proof/Laws/State.lean ====
section
/-! SUPPORT. One lemma per field of State per update of Ops, Flags and Cycle, so that no proof unfolds a record
update. -/

namespace Sys2Proof.Machine

/-! ### setReg -/

@[simp] theorem State.setReg_pc (r : Reg) (v : Word) (s : State) : (s.setReg r v).pc = s.pc := by cases r <;> rfl
@[simp] theorem State.setReg_rs (r : Reg) (v : Word) (s : State) : (s.setReg r v).rs = s.rs := by cases r <;> rfl
@[simp] theorem State.setReg_rf (r : Reg) (v : Word) (s : State) : (s.setReg r v).rf = s.rf := by cases r <;> rfl
@[simp] theorem State.setReg_intState (r : Reg) (v : Word) (s : State) : (s.setReg r v).intState = s.intState := by cases r <;> rfl
@[simp] theorem State.setReg_ie (r : Reg) (v : Word) (s : State) : (s.setReg r v).ie = s.ie := by cases r <;> rfl
@[simp] theorem State.setReg_halted (r : Reg) (v : Word) (s : State) : (s.setReg r v).halted = s.halted := by cases r <;> rfl
@[simp] theorem State.setReg_mem (r : Reg) (v : Word) (s : State) : (s.setReg r v).mem = s.mem := by cases r <;> rfl
@[simp] theorem State.setReg_platform (r : Reg) (v : Word) (s : State) : (s.setReg r v).platform = s.platform := by cases r <;> rfl
@[simp] theorem State.setReg_events (r : Reg) (v : Word) (s : State) : (s.setReg r v).events = s.events := by cases r <;> rfl
@[simp] theorem State.setReg_draws (r : Reg) (v : Word) (s : State) : (s.setReg r v).draws = s.draws := by cases r <;> rfl

/-! ### jump -/

@[simp] theorem State.jump_ax (v : Word) (s : State) : (s.jump v).ax = s.ax := rfl
@[simp] theorem State.jump_bx (v : Word) (s : State) : (s.jump v).bx = s.bx := rfl
@[simp] theorem State.jump_cx (v : Word) (s : State) : (s.jump v).cx = s.cx := rfl
@[simp] theorem State.jump_sp (v : Word) (s : State) : (s.jump v).sp = s.sp := rfl
@[simp] theorem State.jump_pc (v : Word) (s : State) : (s.jump v).pc = v := rfl
@[simp] theorem State.jump_rs (v : Word) (s : State) : (s.jump v).rs = s.rs := rfl
@[simp] theorem State.jump_rf (v : Word) (s : State) : (s.jump v).rf = s.rf := rfl
@[simp] theorem State.jump_intState (v : Word) (s : State) : (s.jump v).intState = s.intState := rfl
@[simp] theorem State.jump_ie (v : Word) (s : State) : (s.jump v).ie = s.ie := rfl
@[simp] theorem State.jump_halted (v : Word) (s : State) : (s.jump v).halted = s.halted := rfl
@[simp] theorem State.jump_mem (v : Word) (s : State) : (s.jump v).mem = s.mem := rfl
@[simp] theorem State.jump_platform (v : Word) (s : State) : (s.jump v).platform = s.platform := rfl
@[simp] theorem State.jump_events (v : Word) (s : State) : (s.jump v).events = s.events := rfl
@[simp] theorem State.jump_draws (v : Word) (s : State) : (s.jump v).draws = s.draws := rfl

/-! ### advance -/

@[simp] theorem State.advance_ax (n : Nat) (s : State) : (s.advance n).ax = s.ax := rfl
@[simp] theorem State.advance_bx (n : Nat) (s : State) : (s.advance n).bx = s.bx := rfl
@[simp] theorem State.advance_cx (n : Nat) (s : State) : (s.advance n).cx = s.cx := rfl
@[simp] theorem State.advance_sp (n : Nat) (s : State) : (s.advance n).sp = s.sp := rfl
@[simp] theorem State.advance_pc (n : Nat) (s : State) : (s.advance n).pc = s.npc n := rfl
@[simp] theorem State.advance_rs (n : Nat) (s : State) : (s.advance n).rs = s.rs := rfl
@[simp] theorem State.advance_rf (n : Nat) (s : State) : (s.advance n).rf = s.rf := rfl
@[simp] theorem State.advance_intState (n : Nat) (s : State) : (s.advance n).intState = s.intState := rfl
@[simp] theorem State.advance_ie (n : Nat) (s : State) : (s.advance n).ie = s.ie := rfl
@[simp] theorem State.advance_halted (n : Nat) (s : State) : (s.advance n).halted = s.halted := rfl
@[simp] theorem State.advance_mem (n : Nat) (s : State) : (s.advance n).mem = s.mem := rfl
@[simp] theorem State.advance_platform (n : Nat) (s : State) : (s.advance n).platform = s.platform := rfl
@[simp] theorem State.advance_events (n : Nat) (s : State) : (s.advance n).events = s.events := rfl
@[simp] theorem State.advance_draws (n : Nat) (s : State) : (s.advance n).draws = s.draws := rfl

/-! ### setFlags -/

@[simp] theorem State.setFlags_ax (z c g : Bool) (s : State) : (s.setFlags z c g).ax = s.ax := rfl
@[simp] theorem State.setFlags_bx (z c g : Bool) (s : State) : (s.setFlags z c g).bx = s.bx := rfl
@[simp] theorem State.setFlags_cx (z c g : Bool) (s : State) : (s.setFlags z c g).cx = s.cx := rfl
@[simp] theorem State.setFlags_sp (z c g : Bool) (s : State) : (s.setFlags z c g).sp = s.sp := rfl
@[simp] theorem State.setFlags_pc (z c g : Bool) (s : State) : (s.setFlags z c g).pc = s.pc := rfl
@[simp] theorem State.setFlags_rs (z c g : Bool) (s : State) : (s.setFlags z c g).rs = rsByte z c g := rfl
@[simp] theorem State.setFlags_rf (z c g : Bool) (s : State) : (s.setFlags z c g).rf = s.rf := rfl
@[simp] theorem State.setFlags_intState (z c g : Bool) (s : State) : (s.setFlags z c g).intState = s.intState := rfl
@[simp] theorem State.setFlags_ie (z c g : Bool) (s : State) : (s.setFlags z c g).ie = s.ie := rfl
@[simp] theorem State.setFlags_halted (z c g : Bool) (s : State) : (s.setFlags z c g).halted = s.halted := rfl
@[simp] theorem State.setFlags_mem (z c g : Bool) (s : State) : (s.setFlags z c g).mem = s.mem := rfl
@[simp] theorem State.setFlags_platform (z c g : Bool) (s : State) : (s.setFlags z c g).platform = s.platform := rfl
@[simp] theorem State.setFlags_events (z c g : Bool) (s : State) : (s.setFlags z c g).events = s.events := rfl
@[simp] theorem State.setFlags_draws (z c g : Bool) (s : State) : (s.setFlags z c g).draws = s.draws := rfl

/-! ### writeRs -/

@[simp] theorem State.writeRs_ax (v : Byte) (s : State) : (s.writeRs v).ax = s.ax := rfl
@[simp] theorem State.writeRs_bx (v : Byte) (s : State) : (s.writeRs v).bx = s.bx := rfl
@[simp] theorem State.writeRs_cx (v : Byte) (s : State) : (s.writeRs v).cx = s.cx := rfl
@[simp] theorem State.writeRs_sp (v : Byte) (s : State) : (s.writeRs v).sp = s.sp := rfl
@[simp] theorem State.writeRs_pc (v : Byte) (s : State) : (s.writeRs v).pc = s.pc := rfl
@[simp] theorem State.writeRs_rs (v : Byte) (s : State) : (s.writeRs v).rs = rsByte (v.getLsbD 7) (v.getLsbD 6) (v.getLsbD 5) := rfl
@[simp] theorem State.writeRs_rf (v : Byte) (s : State) : (s.writeRs v).rf = s.rf := rfl
@[simp] theorem State.writeRs_intState (v : Byte) (s : State) : (s.writeRs v).intState = s.intState := rfl
@[simp] theorem State.writeRs_ie (v : Byte) (s : State) : (s.writeRs v).ie = s.ie := rfl
@[simp] theorem State.writeRs_halted (v : Byte) (s : State) : (s.writeRs v).halted = s.halted := rfl
@[simp] theorem State.writeRs_mem (v : Byte) (s : State) : (s.writeRs v).mem = s.mem := rfl
@[simp] theorem State.writeRs_platform (v : Byte) (s : State) : (s.writeRs v).platform = s.platform := rfl
@[simp] theorem State.writeRs_events (v : Byte) (s : State) : (s.writeRs v).events = s.events := rfl
@[simp] theorem State.writeRs_draws (v : Byte) (s : State) : (s.writeRs v).draws = s.draws := rfl

/-! ### raiseFlags -/

@[simp] theorem State.raiseFlags_ax (e : Byte) (s : State) : (s.raiseFlags e).ax = s.ax := rfl
@[simp] theorem State.raiseFlags_bx (e : Byte) (s : State) : (s.raiseFlags e).bx = s.bx := rfl
@[simp] theorem State.raiseFlags_cx (e : Byte) (s : State) : (s.raiseFlags e).cx = s.cx := rfl
@[simp] theorem State.raiseFlags_sp (e : Byte) (s : State) : (s.raiseFlags e).sp = s.sp := rfl
@[simp] theorem State.raiseFlags_pc (e : Byte) (s : State) : (s.raiseFlags e).pc = s.pc := rfl
@[simp] theorem State.raiseFlags_rs (e : Byte) (s : State) : (s.raiseFlags e).rs = s.rs := rfl
@[simp] theorem State.raiseFlags_rf (e : Byte) (s : State) : (s.raiseFlags e).rf = s.rf ||| (e &&& 0xE0#8) := rfl
@[simp] theorem State.raiseFlags_intState (e : Byte) (s : State) : (s.raiseFlags e).intState = s.intState := rfl
@[simp] theorem State.raiseFlags_ie (e : Byte) (s : State) : (s.raiseFlags e).ie = s.ie := rfl
@[simp] theorem State.raiseFlags_halted (e : Byte) (s : State) : (s.raiseFlags e).halted = s.halted := rfl
@[simp] theorem State.raiseFlags_mem (e : Byte) (s : State) : (s.raiseFlags e).mem = s.mem := rfl
@[simp] theorem State.raiseFlags_platform (e : Byte) (s : State) : (s.raiseFlags e).platform = s.platform := rfl
@[simp] theorem State.raiseFlags_events (e : Byte) (s : State) : (s.raiseFlags e).events = s.events := rfl
@[simp] theorem State.raiseFlags_draws (e : Byte) (s : State) : (s.raiseFlags e).draws = s.draws := rfl

/-! ### clearRf -/

@[simp] theorem State.clearRf_ax (s : State) : (s.clearRf).ax = s.ax := rfl
@[simp] theorem State.clearRf_bx (s : State) : (s.clearRf).bx = s.bx := rfl
@[simp] theorem State.clearRf_cx (s : State) : (s.clearRf).cx = s.cx := rfl
@[simp] theorem State.clearRf_sp (s : State) : (s.clearRf).sp = s.sp := rfl
@[simp] theorem State.clearRf_pc (s : State) : (s.clearRf).pc = s.pc := rfl
@[simp] theorem State.clearRf_rs (s : State) : (s.clearRf).rs = s.rs := rfl
@[simp] theorem State.clearRf_rf (s : State) : (s.clearRf).rf = 0#8 := rfl
@[simp] theorem State.clearRf_intState (s : State) : (s.clearRf).intState = s.intState := rfl
@[simp] theorem State.clearRf_ie (s : State) : (s.clearRf).ie = s.ie := rfl
@[simp] theorem State.clearRf_halted (s : State) : (s.clearRf).halted = s.halted := rfl
@[simp] theorem State.clearRf_mem (s : State) : (s.clearRf).mem = s.mem := rfl
@[simp] theorem State.clearRf_platform (s : State) : (s.clearRf).platform = s.platform := rfl
@[simp] theorem State.clearRf_events (s : State) : (s.clearRf).events = s.events := rfl
@[simp] theorem State.clearRf_draws (s : State) : (s.clearRf).draws = s.draws := rfl

/-! ### wake -/

@[simp] theorem State.wake_ax (s : State) : (s.wake).ax = s.ax := rfl
@[simp] theorem State.wake_bx (s : State) : (s.wake).bx = s.bx := rfl
@[simp] theorem State.wake_cx (s : State) : (s.wake).cx = s.cx := rfl
@[simp] theorem State.wake_sp (s : State) : (s.wake).sp = s.sp := rfl
@[simp] theorem State.wake_pc (s : State) : (s.wake).pc = s.pc := rfl
@[simp] theorem State.wake_rs (s : State) : (s.wake).rs = s.rs := rfl
@[simp] theorem State.wake_rf (s : State) : (s.wake).rf = s.rf := rfl
@[simp] theorem State.wake_intState (s : State) : (s.wake).intState = s.intState := rfl
@[simp] theorem State.wake_ie (s : State) : (s.wake).ie = s.ie := rfl
@[simp] theorem State.wake_halted (s : State) : (s.wake).halted = false := rfl
@[simp] theorem State.wake_mem (s : State) : (s.wake).mem = s.mem := rfl
@[simp] theorem State.wake_platform (s : State) : (s.wake).platform = s.platform := rfl
@[simp] theorem State.wake_events (s : State) : (s.wake).events = s.events := rfl
@[simp] theorem State.wake_draws (s : State) : (s.wake).draws = s.draws := rfl

/-! ### writeByte -/

@[simp] theorem State.writeByte_ax (a : Word) (v : Byte) (s : State) : (s.writeByte a v).ax = s.ax := rfl
@[simp] theorem State.writeByte_bx (a : Word) (v : Byte) (s : State) : (s.writeByte a v).bx = s.bx := rfl
@[simp] theorem State.writeByte_cx (a : Word) (v : Byte) (s : State) : (s.writeByte a v).cx = s.cx := rfl
@[simp] theorem State.writeByte_sp (a : Word) (v : Byte) (s : State) : (s.writeByte a v).sp = s.sp := rfl
@[simp] theorem State.writeByte_pc (a : Word) (v : Byte) (s : State) : (s.writeByte a v).pc = s.pc := rfl
@[simp] theorem State.writeByte_rs (a : Word) (v : Byte) (s : State) : (s.writeByte a v).rs = s.rs := rfl
@[simp] theorem State.writeByte_rf (a : Word) (v : Byte) (s : State) : (s.writeByte a v).rf = s.rf := rfl
@[simp] theorem State.writeByte_intState (a : Word) (v : Byte) (s : State) : (s.writeByte a v).intState = s.intState := rfl
@[simp] theorem State.writeByte_ie (a : Word) (v : Byte) (s : State) : (s.writeByte a v).ie = s.ie := rfl
@[simp] theorem State.writeByte_halted (a : Word) (v : Byte) (s : State) : (s.writeByte a v).halted = s.halted := rfl
@[simp] theorem State.writeByte_mem (a : Word) (v : Byte) (s : State) : (s.writeByte a v).mem = Memory.write s.mem a.toNat v := rfl
@[simp] theorem State.writeByte_platform (a : Word) (v : Byte) (s : State) : (s.writeByte a v).platform = s.platform := rfl
@[simp] theorem State.writeByte_events (a : Word) (v : Byte) (s : State) : (s.writeByte a v).events = s.events := rfl
@[simp] theorem State.writeByte_draws (a : Word) (v : Byte) (s : State) : (s.writeByte a v).draws = s.draws := rfl

/-! ### write16 -/

@[simp] theorem State.write16_ax (a v : Word) (s : State) : (s.write16 a v).ax = s.ax := rfl
@[simp] theorem State.write16_bx (a v : Word) (s : State) : (s.write16 a v).bx = s.bx := rfl
@[simp] theorem State.write16_cx (a v : Word) (s : State) : (s.write16 a v).cx = s.cx := rfl
@[simp] theorem State.write16_sp (a v : Word) (s : State) : (s.write16 a v).sp = s.sp := rfl
@[simp] theorem State.write16_pc (a v : Word) (s : State) : (s.write16 a v).pc = s.pc := rfl
@[simp] theorem State.write16_rs (a v : Word) (s : State) : (s.write16 a v).rs = s.rs := rfl
@[simp] theorem State.write16_rf (a v : Word) (s : State) : (s.write16 a v).rf = s.rf := rfl
@[simp] theorem State.write16_intState (a v : Word) (s : State) : (s.write16 a v).intState = s.intState := rfl
@[simp] theorem State.write16_ie (a v : Word) (s : State) : (s.write16 a v).ie = s.ie := rfl
@[simp] theorem State.write16_halted (a v : Word) (s : State) : (s.write16 a v).halted = s.halted := rfl
@[simp] theorem State.write16_mem (a v : Word) (s : State) : (s.write16 a v).mem = Memory.write (Memory.write s.mem a.toNat (v.extractLsb' 8 8)) (a + 1#16).toNat (v.extractLsb' 0 8) := rfl
@[simp] theorem State.write16_platform (a v : Word) (s : State) : (s.write16 a v).platform = s.platform := rfl
@[simp] theorem State.write16_events (a v : Word) (s : State) : (s.write16 a v).events = s.events := rfl
@[simp] theorem State.write16_draws (a v : Word) (s : State) : (s.write16 a v).draws = s.draws := rfl

/-! ### push16 -/

@[simp] theorem State.push16_ax (v : Word) (s : State) : (s.push16 v).ax = s.ax := rfl
@[simp] theorem State.push16_bx (v : Word) (s : State) : (s.push16 v).bx = s.bx := rfl
@[simp] theorem State.push16_cx (v : Word) (s : State) : (s.push16 v).cx = s.cx := rfl
@[simp] theorem State.push16_sp (v : Word) (s : State) : (s.push16 v).sp = s.sp - 2#16 := rfl
@[simp] theorem State.push16_pc (v : Word) (s : State) : (s.push16 v).pc = s.pc := rfl
@[simp] theorem State.push16_rs (v : Word) (s : State) : (s.push16 v).rs = s.rs := rfl
@[simp] theorem State.push16_rf (v : Word) (s : State) : (s.push16 v).rf = s.rf := rfl
@[simp] theorem State.push16_intState (v : Word) (s : State) : (s.push16 v).intState = s.intState := rfl
@[simp] theorem State.push16_ie (v : Word) (s : State) : (s.push16 v).ie = s.ie := rfl
@[simp] theorem State.push16_halted (v : Word) (s : State) : (s.push16 v).halted = s.halted := rfl
@[simp] theorem State.push16_mem (v : Word) (s : State) : (s.push16 v).mem = (s.write16 s.sp v).mem := rfl
@[simp] theorem State.push16_platform (v : Word) (s : State) : (s.push16 v).platform = s.platform := rfl
@[simp] theorem State.push16_events (v : Word) (s : State) : (s.push16 v).events = s.events := rfl
@[simp] theorem State.push16_draws (v : Word) (s : State) : (s.push16 v).draws = s.draws := rfl

/-! ### popSp -/

@[simp] theorem State.popSp_ax (s : State) : (s.popSp).ax = s.ax := rfl
@[simp] theorem State.popSp_bx (s : State) : (s.popSp).bx = s.bx := rfl
@[simp] theorem State.popSp_cx (s : State) : (s.popSp).cx = s.cx := rfl
@[simp] theorem State.popSp_sp (s : State) : (s.popSp).sp = s.sp + 2#16 := rfl
@[simp] theorem State.popSp_pc (s : State) : (s.popSp).pc = s.pc := rfl
@[simp] theorem State.popSp_rs (s : State) : (s.popSp).rs = s.rs := rfl
@[simp] theorem State.popSp_rf (s : State) : (s.popSp).rf = s.rf := rfl
@[simp] theorem State.popSp_intState (s : State) : (s.popSp).intState = s.intState := rfl
@[simp] theorem State.popSp_ie (s : State) : (s.popSp).ie = s.ie := rfl
@[simp] theorem State.popSp_halted (s : State) : (s.popSp).halted = s.halted := rfl
@[simp] theorem State.popSp_mem (s : State) : (s.popSp).mem = s.mem := rfl
@[simp] theorem State.popSp_platform (s : State) : (s.popSp).platform = s.platform := rfl
@[simp] theorem State.popSp_events (s : State) : (s.popSp).events = s.events := rfl
@[simp] theorem State.popSp_draws (s : State) : (s.popSp).draws = s.draws := rfl

/-! ### setZS -/

@[simp] theorem State.setZS_ax (v : Word) (s : State) : (s.setZS v).ax = s.ax := rfl
@[simp] theorem State.setZS_bx (v : Word) (s : State) : (s.setZS v).bx = s.bx := rfl
@[simp] theorem State.setZS_cx (v : Word) (s : State) : (s.setZS v).cx = s.cx := rfl
@[simp] theorem State.setZS_sp (v : Word) (s : State) : (s.setZS v).sp = s.sp := rfl
@[simp] theorem State.setZS_pc (v : Word) (s : State) : (s.setZS v).pc = s.pc := rfl
@[simp] theorem State.setZS_rs (v : Word) (s : State) : (s.setZS v).rs = rsByte (resultZ v) s.flagC (resultS v) := rfl
@[simp] theorem State.setZS_rf (v : Word) (s : State) : (s.setZS v).rf = s.rf := rfl
@[simp] theorem State.setZS_intState (v : Word) (s : State) : (s.setZS v).intState = s.intState := rfl
@[simp] theorem State.setZS_ie (v : Word) (s : State) : (s.setZS v).ie = s.ie := rfl
@[simp] theorem State.setZS_halted (v : Word) (s : State) : (s.setZS v).halted = s.halted := rfl
@[simp] theorem State.setZS_mem (v : Word) (s : State) : (s.setZS v).mem = s.mem := rfl
@[simp] theorem State.setZS_platform (v : Word) (s : State) : (s.setZS v).platform = s.platform := rfl
@[simp] theorem State.setZS_events (v : Word) (s : State) : (s.setZS v).events = s.events := rfl
@[simp] theorem State.setZS_draws (v : Word) (s : State) : (s.setZS v).draws = s.draws := rfl

/-! ### setZCS -/

@[simp] theorem State.setZCS_ax (v : Word) (c : Bool) (s : State) : (s.setZCS v c).ax = s.ax := rfl
@[simp] theorem State.setZCS_bx (v : Word) (c : Bool) (s : State) : (s.setZCS v c).bx = s.bx := rfl
@[simp] theorem State.setZCS_cx (v : Word) (c : Bool) (s : State) : (s.setZCS v c).cx = s.cx := rfl
@[simp] theorem State.setZCS_sp (v : Word) (c : Bool) (s : State) : (s.setZCS v c).sp = s.sp := rfl
@[simp] theorem State.setZCS_pc (v : Word) (c : Bool) (s : State) : (s.setZCS v c).pc = s.pc := rfl
@[simp] theorem State.setZCS_rs (v : Word) (c : Bool) (s : State) : (s.setZCS v c).rs = rsByte (resultZ v) c (resultS v) := rfl
@[simp] theorem State.setZCS_rf (v : Word) (c : Bool) (s : State) : (s.setZCS v c).rf = s.rf := rfl
@[simp] theorem State.setZCS_intState (v : Word) (c : Bool) (s : State) : (s.setZCS v c).intState = s.intState := rfl
@[simp] theorem State.setZCS_ie (v : Word) (c : Bool) (s : State) : (s.setZCS v c).ie = s.ie := rfl
@[simp] theorem State.setZCS_halted (v : Word) (c : Bool) (s : State) : (s.setZCS v c).halted = s.halted := rfl
@[simp] theorem State.setZCS_mem (v : Word) (c : Bool) (s : State) : (s.setZCS v c).mem = s.mem := rfl
@[simp] theorem State.setZCS_platform (v : Word) (c : Bool) (s : State) : (s.setZCS v c).platform = s.platform := rfl
@[simp] theorem State.setZCS_events (v : Word) (c : Bool) (s : State) : (s.setZCS v c).events = s.events := rfl
@[simp] theorem State.setZCS_draws (v : Word) (c : Bool) (s : State) : (s.setZCS v c).draws = s.draws := rfl

/-! ### setZ -/

@[simp] theorem State.setZ_ax (z : Bool) (s : State) : (s.setZ z).ax = s.ax := rfl
@[simp] theorem State.setZ_bx (z : Bool) (s : State) : (s.setZ z).bx = s.bx := rfl
@[simp] theorem State.setZ_cx (z : Bool) (s : State) : (s.setZ z).cx = s.cx := rfl
@[simp] theorem State.setZ_sp (z : Bool) (s : State) : (s.setZ z).sp = s.sp := rfl
@[simp] theorem State.setZ_pc (z : Bool) (s : State) : (s.setZ z).pc = s.pc := rfl
@[simp] theorem State.setZ_rs (z : Bool) (s : State) : (s.setZ z).rs = rsByte z s.flagC s.flagS := rfl
@[simp] theorem State.setZ_rf (z : Bool) (s : State) : (s.setZ z).rf = s.rf := rfl
@[simp] theorem State.setZ_intState (z : Bool) (s : State) : (s.setZ z).intState = s.intState := rfl
@[simp] theorem State.setZ_ie (z : Bool) (s : State) : (s.setZ z).ie = s.ie := rfl
@[simp] theorem State.setZ_halted (z : Bool) (s : State) : (s.setZ z).halted = s.halted := rfl
@[simp] theorem State.setZ_mem (z : Bool) (s : State) : (s.setZ z).mem = s.mem := rfl
@[simp] theorem State.setZ_platform (z : Bool) (s : State) : (s.setZ z).platform = s.platform := rfl
@[simp] theorem State.setZ_events (z : Bool) (s : State) : (s.setZ z).events = s.events := rfl
@[simp] theorem State.setZ_draws (z : Bool) (s : State) : (s.setZ z).draws = s.draws := rfl

/-! ### clearFlags -/

@[simp] theorem State.clearFlags_ax (mZ mC mS : Bool) (s : State) : (s.clearFlags mZ mC mS).ax = s.ax := rfl
@[simp] theorem State.clearFlags_bx (mZ mC mS : Bool) (s : State) : (s.clearFlags mZ mC mS).bx = s.bx := rfl
@[simp] theorem State.clearFlags_cx (mZ mC mS : Bool) (s : State) : (s.clearFlags mZ mC mS).cx = s.cx := rfl
@[simp] theorem State.clearFlags_sp (mZ mC mS : Bool) (s : State) : (s.clearFlags mZ mC mS).sp = s.sp := rfl
@[simp] theorem State.clearFlags_pc (mZ mC mS : Bool) (s : State) : (s.clearFlags mZ mC mS).pc = s.pc := rfl
@[simp] theorem State.clearFlags_rs (mZ mC mS : Bool) (s : State) : (s.clearFlags mZ mC mS).rs = rsByte (s.flagZ && !mZ) (s.flagC && !mC) (s.flagS && !mS) := rfl
@[simp] theorem State.clearFlags_rf (mZ mC mS : Bool) (s : State) : (s.clearFlags mZ mC mS).rf = s.rf := rfl
@[simp] theorem State.clearFlags_intState (mZ mC mS : Bool) (s : State) : (s.clearFlags mZ mC mS).intState = s.intState := rfl
@[simp] theorem State.clearFlags_ie (mZ mC mS : Bool) (s : State) : (s.clearFlags mZ mC mS).ie = s.ie := rfl
@[simp] theorem State.clearFlags_halted (mZ mC mS : Bool) (s : State) : (s.clearFlags mZ mC mS).halted = s.halted := rfl
@[simp] theorem State.clearFlags_mem (mZ mC mS : Bool) (s : State) : (s.clearFlags mZ mC mS).mem = s.mem := rfl
@[simp] theorem State.clearFlags_platform (mZ mC mS : Bool) (s : State) : (s.clearFlags mZ mC mS).platform = s.platform := rfl
@[simp] theorem State.clearFlags_events (mZ mC mS : Bool) (s : State) : (s.clearFlags mZ mC mS).events = s.events := rfl
@[simp] theorem State.clearFlags_draws (mZ mC mS : Bool) (s : State) : (s.clearFlags mZ mC mS).draws = s.draws := rfl

/-! ### interruptEntry -/

@[simp] theorem State.interruptEntry_ax (v : Word) (s : State) : (s.interruptEntry v).ax = s.ax := rfl
@[simp] theorem State.interruptEntry_bx (v : Word) (s : State) : (s.interruptEntry v).bx = s.bx := rfl
@[simp] theorem State.interruptEntry_cx (v : Word) (s : State) : (s.interruptEntry v).cx = s.cx := rfl
@[simp] theorem State.interruptEntry_sp (v : Word) (s : State) : (s.interruptEntry v).sp = s.sp := rfl
@[simp] theorem State.interruptEntry_pc (v : Word) (s : State) : (s.interruptEntry v).pc = interruptVector := rfl
@[simp] theorem State.interruptEntry_rs (v : Word) (s : State) : (s.interruptEntry v).rs = s.rs := rfl
@[simp] theorem State.interruptEntry_rf (v : Word) (s : State) : (s.interruptEntry v).rf = s.rf := rfl
@[simp] theorem State.interruptEntry_ie (v : Word) (s : State) : (s.interruptEntry v).ie = false := rfl
@[simp] theorem State.interruptEntry_halted (v : Word) (s : State) : (s.interruptEntry v).halted = false := rfl
@[simp] theorem State.interruptEntry_mem (v : Word) (s : State) : (s.interruptEntry v).mem = s.mem := rfl
@[simp] theorem State.interruptEntry_platform (v : Word) (s : State) : (s.interruptEntry v).platform = s.platform := rfl
@[simp] theorem State.interruptEntry_events (v : Word) (s : State) : (s.interruptEntry v).events = s.events := rfl
@[simp] theorem State.interruptEntry_draws (v : Word) (s : State) : (s.interruptEntry v).draws = s.draws := rfl

/-! ### returnFromInterrupt -/

@[simp] theorem State.returnFromInterrupt_ax (s : State) : (s.returnFromInterrupt).ax = s.intState.ax := rfl
@[simp] theorem State.returnFromInterrupt_bx (s : State) : (s.returnFromInterrupt).bx = s.intState.bx := rfl
@[simp] theorem State.returnFromInterrupt_cx (s : State) : (s.returnFromInterrupt).cx = s.intState.cx := rfl
@[simp] theorem State.returnFromInterrupt_sp (s : State) : (s.returnFromInterrupt).sp = s.intState.sp := rfl
@[simp] theorem State.returnFromInterrupt_pc (s : State) : (s.returnFromInterrupt).pc = s.intState.pc := rfl
@[simp] theorem State.returnFromInterrupt_rs (s : State) : (s.returnFromInterrupt).rs = rsByte (s.intState.rs.getLsbD 7) (s.intState.rs.getLsbD 6) (s.intState.rs.getLsbD 5) := rfl
@[simp] theorem State.returnFromInterrupt_rf (s : State) : (s.returnFromInterrupt).rf = 0#8 := rfl
@[simp] theorem State.returnFromInterrupt_intState (s : State) : (s.returnFromInterrupt).intState = s.intState := rfl
@[simp] theorem State.returnFromInterrupt_ie (s : State) : (s.returnFromInterrupt).ie = s.intState.ie := rfl
@[simp] theorem State.returnFromInterrupt_halted (s : State) : (s.returnFromInterrupt).halted = s.halted := rfl
@[simp] theorem State.returnFromInterrupt_mem (s : State) : (s.returnFromInterrupt).mem = s.mem := rfl
@[simp] theorem State.returnFromInterrupt_platform (s : State) : (s.returnFromInterrupt).platform = s.platform := rfl
@[simp] theorem State.returnFromInterrupt_events (s : State) : (s.returnFromInterrupt).events = s.events := rfl
@[simp] theorem State.returnFromInterrupt_draws (s : State) : (s.returnFromInterrupt).draws = s.draws := rfl

/-! ### resetSequence -/

@[simp] theorem State.resetSequence_ax (s : State) : (s.resetSequence).ax = Config.freeWord s.draws := rfl
@[simp] theorem State.resetSequence_bx (s : State) : (s.resetSequence).bx = Config.freeWord (s.draws + 1) := rfl
@[simp] theorem State.resetSequence_cx (s : State) : (s.resetSequence).cx = Config.freeWord (s.draws + 2) := rfl
@[simp] theorem State.resetSequence_sp (s : State) : (s.resetSequence).sp = Config.freeWord (s.draws + 3) := rfl
@[simp] theorem State.resetSequence_pc (s : State) : (s.resetSequence).pc = s.platform.resetPc := rfl
@[simp] theorem State.resetSequence_rs (s : State) : (s.resetSequence).rs = rsByte ((Config.freeByte s.draws).getLsbD 7) ((Config.freeByte s.draws).getLsbD 6) ((Config.freeByte s.draws).getLsbD 5) := rfl
@[simp] theorem State.resetSequence_rf (s : State) : (s.resetSequence).rf = Config.freeByte (s.draws + 1) &&& 0xE0#8 := rfl
@[simp] theorem State.resetSequence_intState (s : State) : (s.resetSequence).intState = drawIntState s.draws := rfl
@[simp] theorem State.resetSequence_ie (s : State) : (s.resetSequence).ie = false := rfl
@[simp] theorem State.resetSequence_halted (s : State) : (s.resetSequence).halted = false := rfl
@[simp] theorem State.resetSequence_mem (s : State) : (s.resetSequence).mem = s.mem := rfl
@[simp] theorem State.resetSequence_platform (s : State) : (s.resetSequence).platform = s.platform := rfl
@[simp] theorem State.resetSequence_events (s : State) : (s.resetSequence).events = s.events := rfl
@[simp] theorem State.resetSequence_draws (s : State) : (s.resetSequence).draws = s.draws + drawsPerReset := rfl

/-! ### Reading registers and bytes after an update that does not touch them -/

@[simp] theorem State.reg_ax (s : State) : s.reg .ax = s.ax := rfl
@[simp] theorem State.reg_bx (s : State) : s.reg .bx = s.bx := rfl
@[simp] theorem State.reg_cx (s : State) : s.reg .cx = s.cx := rfl
@[simp] theorem State.reg_sp (s : State) : s.reg .sp = s.sp := rfl
@[simp] theorem State.setReg_reg_same (r : Reg) (v : Word) (s : State) : (s.setReg r v).reg r = v := by cases r <;> rfl
theorem State.setReg_reg_ne {r q : Reg} (h : q ≠ r) (v : Word) (s : State) : (s.setReg r v).reg q = s.reg q := by
  cases r <;> cases q <;> first | rfl | exact absurd rfl h
@[simp] theorem State.jump_reg (v : Word) (r : Reg) (s : State) : (s.jump v).reg r = s.reg r := by cases r <;> rfl
@[simp] theorem State.advance_reg (n : Nat) (r : Reg) (s : State) : (s.advance n).reg r = s.reg r := by cases r <;> rfl
@[simp] theorem State.setFlags_reg (z c g : Bool) (r : Reg) (s : State) : (s.setFlags z c g).reg r = s.reg r := by cases r <;> rfl
@[simp] theorem State.setZS_reg (v : Word) (r : Reg) (s : State) : (s.setZS v).reg r = s.reg r := by cases r <;> rfl
@[simp] theorem State.setZCS_reg (v : Word) (c : Bool) (r : Reg) (s : State) : (s.setZCS v c).reg r = s.reg r := by cases r <;> rfl
@[simp] theorem State.setZ_reg (z : Bool) (r : Reg) (s : State) : (s.setZ z).reg r = s.reg r := by cases r <;> rfl
@[simp] theorem State.clearFlags_reg (mZ mC mS : Bool) (r : Reg) (s : State) : (s.clearFlags mZ mC mS).reg r = s.reg r := by cases r <;> rfl
@[simp] theorem State.writeRs_reg (v : Byte) (r : Reg) (s : State) : (s.writeRs v).reg r = s.reg r := by cases r <;> rfl
@[simp] theorem State.raiseFlags_reg (e : Byte) (r : Reg) (s : State) : (s.raiseFlags e).reg r = s.reg r := by cases r <;> rfl
@[simp] theorem State.clearRf_reg (r : Reg) (s : State) : (s.clearRf).reg r = s.reg r := by cases r <;> rfl
@[simp] theorem State.wake_reg (r : Reg) (s : State) : (s.wake).reg r = s.reg r := by cases r <;> rfl
@[simp] theorem State.writeByte_reg (a : Word) (v : Byte) (r : Reg) (s : State) : (s.writeByte a v).reg r = s.reg r := by cases r <;> rfl
@[simp] theorem State.write16_reg (a v : Word) (r : Reg) (s : State) : (s.write16 a v).reg r = s.reg r := by cases r <;> rfl
@[simp] theorem State.interruptEntry_reg (v : Word) (r : Reg) (s : State) : (s.interruptEntry v).reg r = s.reg r := by cases r <;> rfl
@[simp] theorem State.setReg_byteAt (r : Reg) (v : Word) (a : Word) (s : State) : (s.setReg r v).byteAt a = s.byteAt a := by simp [State.byteAt]
@[simp] theorem State.jump_byteAt (v : Word) (a : Word) (s : State) : (s.jump v).byteAt a = s.byteAt a := by simp [State.byteAt]
@[simp] theorem State.advance_byteAt (n : Nat) (a : Word) (s : State) : (s.advance n).byteAt a = s.byteAt a := by simp [State.byteAt]
@[simp] theorem State.setFlags_byteAt (z c g : Bool) (a : Word) (s : State) : (s.setFlags z c g).byteAt a = s.byteAt a := by simp [State.byteAt]
@[simp] theorem State.setZS_byteAt (v : Word) (a : Word) (s : State) : (s.setZS v).byteAt a = s.byteAt a := by simp [State.byteAt]
@[simp] theorem State.setZCS_byteAt (v : Word) (c : Bool) (a : Word) (s : State) : (s.setZCS v c).byteAt a = s.byteAt a := by simp [State.byteAt]
@[simp] theorem State.setZ_byteAt (z : Bool) (a : Word) (s : State) : (s.setZ z).byteAt a = s.byteAt a := by simp [State.byteAt]
@[simp] theorem State.clearFlags_byteAt (mZ mC mS : Bool) (a : Word) (s : State) : (s.clearFlags mZ mC mS).byteAt a = s.byteAt a := by simp [State.byteAt]
@[simp] theorem State.writeRs_byteAt (v : Byte) (a : Word) (s : State) : (s.writeRs v).byteAt a = s.byteAt a := by simp [State.byteAt]
@[simp] theorem State.raiseFlags_byteAt (e : Byte) (a : Word) (s : State) : (s.raiseFlags e).byteAt a = s.byteAt a := by simp [State.byteAt]
@[simp] theorem State.clearRf_byteAt (a : Word) (s : State) : (s.clearRf).byteAt a = s.byteAt a := by simp [State.byteAt]
@[simp] theorem State.wake_byteAt (a : Word) (s : State) : (s.wake).byteAt a = s.byteAt a := by simp [State.byteAt]
@[simp] theorem State.popSp_byteAt (a : Word) (s : State) : (s.popSp).byteAt a = s.byteAt a := by simp [State.byteAt]
@[simp] theorem State.interruptEntry_byteAt (v : Word) (a : Word) (s : State) : (s.interruptEntry v).byteAt a = s.byteAt a := by simp [State.byteAt]
@[simp] theorem State.returnFromInterrupt_byteAt (a : Word) (s : State) : (s.returnFromInterrupt).byteAt a = s.byteAt a := by simp [State.byteAt]
@[simp] theorem State.resetSequence_byteAt (a : Word) (s : State) : (s.resetSequence).byteAt a = s.byteAt a := by simp [State.byteAt]

end Sys2Proof.Machine
end

