-- ==== Sys2Proof/Laws/Flags.lean ====
section
/-! SUPPORT. The flags after a flag write, and bits 4:0 of RS and RF. -/

namespace Sys2Proof.Machine

@[simp] theorem rsByte_getElem_z (z c g : Bool) : (rsByte z c g)[7] = z := by
  cases z <;> cases c <;> cases g <;> rfl
theorem rsByte_z (z c g : Bool) : (rsByte z c g).getLsbD 7 = z := by
  cases z <;> cases c <;> cases g <;> rfl
@[simp] theorem rsByte_getElem_c (z c g : Bool) : (rsByte z c g)[6] = c := by
  cases z <;> cases c <;> cases g <;> rfl
theorem rsByte_c (z c g : Bool) : (rsByte z c g).getLsbD 6 = c := by
  cases z <;> cases c <;> cases g <;> rfl
@[simp] theorem rsByte_getElem_s (z c g : Bool) : (rsByte z c g)[5] = g := by
  cases z <;> cases c <;> cases g <;> rfl
theorem rsByte_s (z c g : Bool) : (rsByte z c g).getLsbD 5 = g := by
  cases z <;> cases c <;> cases g <;> rfl
@[simp] theorem rsByte_low (z c g : Bool) : rsByte z c g &&& 0x1F#8 = 0#8 := by
  cases z <;> cases c <;> cases g <;> rfl

@[simp] theorem State.setFlags_flagZ (z c g : Bool) (s : State) : (s.setFlags z c g).flagZ = z := rsByte_z z c g
@[simp] theorem State.setFlags_flagC (z c g : Bool) (s : State) : (s.setFlags z c g).flagC = c := rsByte_c z c g
@[simp] theorem State.setFlags_flagS (z c g : Bool) (s : State) : (s.setFlags z c g).flagS = g := rsByte_s z c g

@[simp] theorem State.setReg_flagZ (r : Reg) (v : Word) (s : State) : (s.setReg r v).flagZ = s.flagZ := by
  simp [State.flagZ]
@[simp] theorem State.setReg_flagC (r : Reg) (v : Word) (s : State) : (s.setReg r v).flagC = s.flagC := by
  simp [State.flagC]
@[simp] theorem State.setReg_flagS (r : Reg) (v : Word) (s : State) : (s.setReg r v).flagS = s.flagS := by
  simp [State.flagS]

/-- A byte of RS with bits 4:0 zero is the byte of its three flags (10_state.md R28). -/
theorem rsByte_of_low_zero {v : Byte} (h : v &&& 0x1F#8 = 0#8) :
    rsByte (v.getLsbD 7) (v.getLsbD 6) (v.getLsbD 5) = v := by
  revert v
  decide

theorem low_zero_or {v e : Byte} (h : v &&& 0x1F#8 = 0#8) : (v ||| (e &&& 0xE0#8)) &&& 0x1F#8 = 0#8 := by
  apply BitVec.eq_of_getLsbD_eq
  intro i hi
  have hb : (v &&& 0x1F#8).getLsbD i = false := by rw [h]; simp
  clear h
  interval_cases i <;> simp_all

/-- Raising flags keeps bits 4:0 of RF at 0 (10_state.md R32; 60_exceptions.md R302). -/
theorem State.raiseFlags_low_zero {s : State} (h : s.rf &&& 0x1F#8 = 0#8) (e : Byte) :
    (s.raiseFlags e).rf &&& 0x1F#8 = 0#8 := low_zero_or h

end Sys2Proof.Machine
end

