-- ==== Sys2Proof/Laws/Memory.lean ====
section
/-! SUPPORT. Memory as a list of cells: read after write, and every operation keeps the canonical form. -/

namespace Sys2Proof.Machine

@[simp] theorem Memory.wf_nil : Memory.wf [] = true := rfl

theorem Memory.risesFrom_cons (lo k : Nat) (v : Byte) (m : Memory) :
    Memory.risesFrom lo ((k, v) :: m) = true ↔ lo ≤ k ∧ k < 65536 ∧ Memory.risesFrom (k + 1) m = true := by
  simp [Memory.risesFrom, and_assoc]

theorem Memory.risesFrom_mono {lo lo' : Nat} (h : lo' ≤ lo) {m : Memory} (hm : Memory.risesFrom lo m = true) :
    Memory.risesFrom lo' m = true := by
  cases m with
  | nil => rfl
  | cons c m =>
    obtain ⟨k, v⟩ := c
    rw [Memory.risesFrom_cons] at hm ⊢
    exact ⟨h.trans hm.1, hm.2⟩

theorem Memory.risesFrom_write {lo a : Nat} (v : Byte) (hlo : lo ≤ a) (ha : a < 65536) {m : Memory}
    (hm : Memory.risesFrom lo m = true) : Memory.risesFrom lo (Memory.write m a v) = true := by
  induction m generalizing lo with
  | nil => simp [Memory.write, Memory.risesFrom, hlo, ha]
  | cons c m ih =>
    obtain ⟨k, w⟩ := c
    have ⟨h1, h2, h3⟩ := (Memory.risesFrom_cons _ _ _ _).1 hm
    unfold Memory.write
    split
    · next h => exact (Memory.risesFrom_cons _ _ _ _).2 ⟨hlo, ha, (Memory.risesFrom_cons _ _ _ _).2 ⟨h, h2, h3⟩⟩
    · split
      · next h => subst h; exact (Memory.risesFrom_cons _ _ _ _).2 ⟨hlo, ha, h3⟩
      · exact (Memory.risesFrom_cons _ _ _ _).2 ⟨h1, h2, ih (by omega) h3⟩

/-- A store to an address of the address space keeps the canonical form. -/
theorem Memory.wf_write {m : Memory} (hm : Memory.wf m = true) {a : Nat} (ha : a < 65536) (v : Byte) :
    Memory.wf (Memory.write m a v) = true :=
  Memory.risesFrom_write v (Nat.zero_le a) ha hm

theorem Memory.read?_write_same (m : Memory) (a : Nat) (v : Byte) : Memory.read? (Memory.write m a v) a = some v := by
  induction m with
  | nil => simp [Memory.write, Memory.read?]
  | cons c m ih =>
    obtain ⟨k, w⟩ := c
    unfold Memory.write
    split
    · simp [Memory.read?]
    · split
      · simp [Memory.read?]
      · next h => simp [Memory.read?, Ne.symm h, ih]

theorem Memory.read?_write_ne (m : Memory) {a b : Nat} (h : b ≠ a) (v : Byte) :
    Memory.read? (Memory.write m a v) b = Memory.read? m b := by
  induction m with
  | nil => simp [Memory.write, Memory.read?, Ne.symm h]
  | cons c m ih =>
    obtain ⟨k, w⟩ := c
    unfold Memory.write
    split
    · simp [Memory.read?, Ne.symm h]
    · split
      · next hk => subst hk; simp [Memory.read?, Ne.symm h]
      · simp [Memory.read?, ih]

theorem Memory.read?_none_of_lt {lo a : Nat} {m : Memory} (hm : Memory.risesFrom lo m = true) (h : a < lo) :
    Memory.read? m a = none := by
  induction m generalizing lo with
  | nil => rfl
  | cons c m ih =>
    obtain ⟨k, w⟩ := c
    have ⟨h1, _, h3⟩ := (Memory.risesFrom_cons _ _ _ _).1 hm
    simp [Memory.read?, show ¬k = a by omega, ih h3 (by omega)]

theorem Memory.ext_from {lo lo' : Nat} {m n : Memory} (hm : Memory.risesFrom lo m = true)
    (hn : Memory.risesFrom lo' n = true) (h : ∀ a, Memory.read? m a = Memory.read? n a) : m = n := by
  induction m generalizing n lo lo' with
  | nil =>
    cases n with
    | nil => rfl
    | cons c n => obtain ⟨k, w⟩ := c; simpa [Memory.read?] using h k
  | cons c m ih =>
    obtain ⟨k, w⟩ := c
    have ⟨_, _, hm'⟩ := (Memory.risesFrom_cons _ _ _ _).1 hm
    cases n with
    | nil => simpa [Memory.read?] using h k
    | cons d n =>
      obtain ⟨j, u⟩ := d
      have ⟨_, _, hn'⟩ := (Memory.risesFrom_cons _ _ _ _).1 hn
      rcases Nat.lt_trichotomy k j with hkj | hkj | hkj
      · have := h k
        simp [Memory.read?, show ¬j = k by omega, Memory.read?_none_of_lt hn' (show k < j + 1 by omega)] at this
      · subst hkj
        have hw : w = u := by simpa [Memory.read?] using h k
        subst hw
        congr 1
        refine ih hm' hn' fun a => ?_
        by_cases hak : a = k
        · subst hak
          rw [Memory.read?_none_of_lt hm' (Nat.lt_succ_self a), Memory.read?_none_of_lt hn' (Nat.lt_succ_self a)]
        · simpa [Memory.read?, Ne.symm hak] using h a
      · have := h j
        simp [Memory.read?, show ¬k = j by omega, Memory.read?_none_of_lt hm' (show j < k + 1 by omega)] at this

/-- Two memories in canonical form that hold the same bytes are equal data. -/
theorem Memory.eq_of_read?_eq {m n : Memory} (hm : Memory.wf m = true) (hn : Memory.wf n = true)
    (h : ∀ a, Memory.read? m a = Memory.read? n a) : m = n :=
  Memory.ext_from hm hn h

/-- Memory right after reset has the canonical form. -/
theorem State.reset_mem_wf : Memory.wf State.reset.mem = true := rfl

end Sys2Proof.Machine
end

