-- ==== Sys2Proof/Laws/Ops.lean ====
section
/-! SUPPORT. For each shared operation one lemma that says what it does; proofs cite these and do not unfold it. -/

namespace Sys2Proof.Machine

/-! ## Bytes and 16-bit accesses -/

@[simp] theorem State.byteAt_writeByte_same (s : State) (a : Word) (v : Byte) : (s.writeByte a v).byteAt a = v := by
  simp [State.byteAt, Memory.read?_write_same]

theorem State.byteAt_writeByte_ne (s : State) {a b : Word} (h : b ≠ a) (v : Byte) :
    (s.writeByte a v).byteAt b = s.byteAt b := by
  have : b.toNat ≠ a.toNat := fun e => h (BitVec.eq_of_toNat_eq e)
  simp [State.byteAt, Memory.read?_write_ne _ this]

theorem word_succ_ne (a : Word) : a + 1#16 ≠ a := by
  intro h
  have := congrArg BitVec.toNat h
  simp [BitVec.toNat_add] at this
  have := a.isLt
  omega

/-- The two bytes of a 16-bit store, and every other byte unchanged (20_memory.md R63). -/
theorem State.byteAt_write16 (s : State) (a v b : Word) :
    (s.write16 a v).byteAt b =
      if b = a + 1#16 then v.extractLsb' 0 8 else if b = a then v.extractLsb' 8 8 else s.byteAt b := by
  unfold State.write16
  split
  · next h => subst h; exact State.byteAt_writeByte_same _ _ _
  · next h =>
    rw [State.byteAt_writeByte_ne _ h]
    split
    · next h' => subst h'; exact State.byteAt_writeByte_same _ _ _
    · next h' => exact State.byteAt_writeByte_ne _ h' _

theorem State.byteAt_write16_outside (s : State) {a v b : Word} (h : b ∉ [a, a + 1#16]) :
    (s.write16 a v).byteAt b = s.byteAt b := by
  simp only [List.mem_cons, List.not_mem_nil, or_false, not_or] at h
  rw [State.byteAt_write16, if_neg h.2, if_neg h.1]

theorem word_bytes_append (v : Word) : v.extractLsb' 8 8 ++ v.extractLsb' 0 8 = v := by
  apply BitVec.eq_of_getLsbD_eq
  intro i hi
  simp only [BitVec.getLsbD_append, BitVec.getLsbD_extractLsb']
  by_cases h : i < 8
  · simp [h]
  · simp [h, show i - 8 < 8 by omega, show 8 + (i - 8) = i by omega]

/-- A 16-bit load sees the 16-bit store at the same address (R63). -/
theorem State.read16_write16 (s : State) (a v : Word) : (s.write16 a v).read16 a = v := by
  simp only [State.read16, State.byteAt_write16, if_true, if_neg (word_succ_ne a).symm]
  exact word_bytes_append v

/-- A store keeps the canonical form of memory. -/
theorem State.write16_mem_wf {s : State} (h : Memory.wf s.mem = true) (a v : Word) :
    Memory.wf (s.write16 a v).mem = true := by
  simp only [State.write16_mem]
  exact Memory.wf_write (Memory.wf_write h a.isLt _) (a + 1#16).isLt _

theorem State.writeByte_mem_wf {s : State} (h : Memory.wf s.mem = true) (a : Word) (v : Byte) :
    Memory.wf (s.writeByte a v).mem = true :=
  Memory.wf_write h a.isLt v

/-! ## The address map -/

/-- The map is the platform's, which no step changes. -/
theorem State.kindAt_eq {s t : State} (h : t.platform = s.platform) (a : Word) : t.kindAt a = s.kindAt a := by
  simp only [kindAt, h]

/-- On the default map every byte is RAM (20_memory.md R68). -/
theorem State.kindAt_default {s : State} (h : s.platform.memMap = []) (a : Word) : s.kindAt a = .ram := by
  simp only [kindAt, h, kindIn]

theorem State.readRefusal_eq_none {s : State} {a : Word} : s.readRefusal a = none ↔ s.kindAt a ≠ .device := by
  unfold readRefusal; cases s.kindAt a <;> simp

theorem State.readRefusal_eq_some {s : State} {a : Word} {why : Refusal} :
    s.readRefusal a = some why ↔ s.kindAt a = .device ∧ why = .deviceAccess a := by
  unfold readRefusal; cases s.kindAt a <;> simp [eq_comm]

theorem State.writeRefusal_eq_none {s : State} {a : Word} : s.writeRefusal a = none ↔ s.kindAt a = .ram := by
  unfold writeRefusal; cases s.kindAt a <;> simp

theorem State.writeRefusal_eq_some {s : State} {a : Word} {why : Refusal} :
    s.writeRefusal a = some why ↔
      (s.kindAt a = .rom ∧ why = .romWrite a) ∨ (s.kindAt a = .device ∧ why = .deviceAccess a) := by
  unfold writeRefusal; cases s.kindAt a <;> simp [eq_comm]

/-- Of two accesses in order, the first refused one gives the reason. -/
theorem refusal_or_eq_none {p q : Option Refusal} : p.or q = none ↔ p = none ∧ q = none := by
  cases p <;> simp

theorem refusal_or_eq_some {p q : Option Refusal} {why : Refusal} (h : p.or q = some why) : p = some why ∨ q = some why := by
  cases p <;> simp_all

/-- A guarded step answers its next state, or the reason. -/
theorem nextUnless_eq_next {r : Option Refusal} {t u : State} : nextUnless r t = .next u ↔ r = none ∧ u = t := by
  cases r <;> simp [nextUnless, eq_comm]

theorem nextUnless_eq_refused {r : Option Refusal} {t : State} {why : Refusal} :
    nextUnless r t = .refused why ↔ r = some why := by
  cases r <;> simp [nextUnless]

theorem nextUnless_ne_fault (r : Option Refusal) (t : State) (f : Fault) : nextUnless r t ≠ .fault f := by
  cases r <;> simp [nextUnless]

/-! ## Stack -/

/-- `Push16(v)`: `v` at the old SP, SP down by 2, the rest as before (41_stack_and_jumps.md R150). -/
theorem State.push16_spec (s : State) (v : Word) :
    (s.push16 v).sp = s.sp - 2#16 ∧ (s.push16 v).read16 s.sp = v ∧
    (∀ r, r ≠ .sp → (s.push16 v).reg r = s.reg r) ∧
    (∀ a, a ∉ [s.sp, s.sp + 1#16] → (s.push16 v).byteAt a = s.byteAt a) := by
  refine ⟨rfl, s.read16_write16 s.sp v, ?_, fun a h => s.byteAt_write16_outside h⟩
  intro r hr
  cases r <;> first | rfl | exact absurd rfl hr

@[simp] theorem State.push16_byteAt (s : State) (v a : Word) : (s.push16 v).byteAt a = (s.write16 s.sp v).byteAt a := rfl

theorem State.push16_mem_wf {s : State} (h : Memory.wf s.mem = true) (v : Word) :
    Memory.wf (s.push16 v).mem = true := by
  simpa only [State.push16_mem] using State.write16_mem_wf h s.sp v

/-- `Pop16()`: SP up by 2, then the value there (R151). -/
theorem State.popSp_topOfStack (s : State) :
    s.popSp.sp = s.sp + 2#16 ∧ s.popSp.topOfStack = s.read16 (s.sp + 2#16) ∧
    (∀ r, r ≠ .sp → s.popSp.reg r = s.reg r) := by
  refine ⟨rfl, by simp [State.topOfStack, State.read16], ?_⟩
  intro r hr
  cases r <;> first | rfl | exact absurd rfl hr

/-- CAL and CAR: the return address, then SP as the first push left it, then the jump (45_subroutine.md R210). -/
theorem State.call_spec (s : State) (target : Word) :
    (s.call target).pc = target ∧ (s.call target).sp = s.sp - 2#16 - 2#16 ∧
    (∀ a, (s.call target).byteAt a =
      ((s.write16 s.sp (s.npc 3)).write16 (s.sp - 2#16) (s.sp - 2#16)).byteAt a) :=
  ⟨rfl, rfl, fun _ => rfl⟩

/-- RCL and RCR: SP ends at `addr + 2` and PC is the value there (R211). -/
theorem State.returnFrom_spec (s : State) (addr : Word) :
    (s.returnFrom addr).sp = addr + 2#16 ∧ (s.returnFrom addr).pc = s.read16 (addr + 2#16) ∧
    (s.returnFrom addr).mem = s.mem :=
  ⟨rfl, by simp [State.returnFrom, State.topOfStack, State.read16, State.byteAt], rfl⟩

/-! ## Interrupt entry and reset -/

/-- Everything interrupt entry does (60_exceptions.md R305). -/
theorem State.interruptEntry_spec (s : State) (savedPc : Word) :
    s.interruptEntry savedPc =
      { s with
        intState := ⟨s.ax, s.bx, s.cx, s.sp, savedPc, s.rs, s.rf, s.intState.retAddr, s.ie⟩
        ie := false, halted := false, pc := interruptVector } := rfl

@[simp] theorem State.interruptEntry_intState (s : State) (v : Word) :
    (s.interruptEntry v).intState = ⟨s.ax, s.bx, s.cx, s.sp, v, s.rs, s.rf, s.intState.retAddr, s.ie⟩ := rfl

/-! ## The boundary -/

/-- What the environment can do to the core: raise flags of RF (R302). -/
theorem State.environmentActs_spec (s : State) :
    ∃ e es, s.environmentActs = State.raiseFlags e { s with events := es } := by
  obtain ⟨_, _, _, _, _, _, rf, _, _, _, _, _, events, _⟩ := s
  cases events with
  | nil => exact ⟨0#8, [], by simp [State.environmentActs, State.raiseFlags]⟩
  | cons e es => exact ⟨e, es, rfl⟩

/-- An instruction is one, two or three bytes long (30_encoding.md R90). -/
theorem lengthOf_cases (b0 : Byte) : lengthOf b0 = 1 ∨ lengthOf b0 = 2 ∨ lengthOf b0 = 3 := by
  unfold lengthOf; simp only; repeat' split
  all_goals simp

/-- The bytes of the instruction at PC can be fetched exactly where none of them is a device's. -/
theorem State.fetchRefusal_eq_none {s : State} :
    s.fetchRefusal = none ↔ ∀ k < lengthOf (s.byteAt s.pc), s.kindAt (s.pc + BitVec.ofNat 16 k) ≠ .device := by
  have hr : ∀ n, (∀ k < n + 1, s.kindAt (s.pc + BitVec.ofNat 16 k) ≠ .device) ↔
      (∀ k < n, s.kindAt (s.pc + BitVec.ofNat 16 k) ≠ .device) ∧ s.kindAt (s.pc + BitVec.ofNat 16 n) ≠ .device :=
    fun _ => Nat.forall_lt_succ_right
  rcases lengthOf_cases (s.byteAt s.pc) with h | h | h <;> rw [h, hr]
  · simp [fetchRefusal, h, readRefusal_eq_none]
  · rw [hr]; simp [fetchRefusal, h, readRefusal_eq_none]
  · rw [hr, hr]; simp [fetchRefusal, h, readRefusal_eq_none, and_assoc]

/-- Otherwise the refusal names one of them. -/
theorem State.fetchRefusal_eq_some {s : State} {why : Refusal} (h : s.fetchRefusal = some why) :
    ∃ k < lengthOf (s.byteAt s.pc),
      s.kindAt (s.pc + BitVec.ofNat 16 k) = .device ∧ why = .deviceAccess (s.pc + BitVec.ofNat 16 k) := by
  have hn := lengthOf_cases (s.byteAt s.pc)
  rcases refusal_or_eq_some h with h | h
  · obtain ⟨hd, rfl⟩ := readRefusal_eq_some.1 h
    exact ⟨0, by omega, by simpa using hd, by simp⟩
  rcases refusal_or_eq_some h with h | h <;> split at h
  · obtain ⟨hd, rfl⟩ := readRefusal_eq_some.1 h
    exact ⟨1, by omega, hd, rfl⟩
  · cases h
  · obtain ⟨hd, rfl⟩ := readRefusal_eq_some.1 h
    exact ⟨2, by omega, hd, rfl⟩
  · cases h

/-- Fetching and executing answers a next state only where no byte of the instruction is a device's, and then it executes. -/
theorem State.fetchAndExecute_next {s t : State} (h : s.fetchAndExecute = .next t) :
    s.fetchRefusal = none ∧ exec s.fetch s = .next t := by
  unfold fetchAndExecute at h
  split at h
  · next hr => exact ⟨hr, h⟩
  · cases h

/-- A pass that answers a next state was a silent boundary of a sleeping core, an interrupt entry, or the execution of
the fetched instruction (10_state.md R27). -/
theorem cycle_next_cases {s t : State} (h : cycle s = .next t) :
    (s.environmentActs.isAsleep = true ∧ t = s.environmentActs) ∨
    (s.environmentActs.wake.interruptDue = true ∧
      t = s.environmentActs.wake.interruptEntry s.environmentActs.wake.pc) ∨
    (s.environmentActs.isAsleep = false ∧ s.environmentActs.wake.interruptDue = false ∧
      s.environmentActs.wake.fetchRefusal = none ∧
      exec s.environmentActs.wake.fetch s.environmentActs.wake = .next t) := by
  simp only [cycle, State.pass] at h
  by_cases ha : s.environmentActs.isAsleep = true
  · rw [if_pos ha] at h
    split at h
    · cases h
    · cases h; exact .inl ⟨ha, rfl⟩
  · rw [if_neg ha] at h
    split at h
    · next hd => cases h; exact .inr (.inl ⟨hd, rfl⟩)
    · next hd => exact .inr (.inr ⟨by simpa using ha, by simpa using hd, State.fetchAndExecute_next h⟩)

end Sys2Proof.Machine
end

