-- ==== Sys2Proof/Laws/Operands.lean ====
section
/-! SUPPORT. One lemma per operand form and per shared shape of Machine/Operands.lean: everything it can do. -/

namespace Sys2Proof.Machine

/-! ## Immediates and counts -/

/-- imm4 is zero-extended (30_encoding.md R104). -/
theorem imm4Word_eq (v : BitVec 4) : imm4Word v = BitVec.ofNat 16 v.toNat :=
  BitVec.eq_of_toNat_eq (by simp [imm4Word])
theorem imm4Word_toNat (v : BitVec 4) : (imm4Word v).toNat = v.toNat := by
  simp only [imm4Word, BitVec.toNat_setWidth]; omega
/-- imm2 is zero-extended (R104). -/
theorem imm2Word_eq (v : BitVec 2) : imm2Word v = BitVec.ofNat 16 v.toNat :=
  BitVec.eq_of_toNat_eq (by simp [imm2Word])
/-- off12 is zero-extended (R104). -/
theorem off12Word_eq (v : BitVec 12) : off12Word v = BitVec.ofNat 16 v.toNat :=
  BitVec.eq_of_toNat_eq (by simp [off12Word])
/-- off8 is sign-extended (R104). -/
theorem off8Word_eq (v : Byte) : off8Word v = BitVec.ofInt 16 v.toInt := rfl
/-- The register form's count is the register modulo 16 (46_irf_and_shift.md R221). -/
theorem countOfWord_eq (w : Word) : countOfWord w = w.toNat % 16 := by simp [countOfWord]

/-! ## Guarded accesses -/

/-- A 16-bit read is refused exactly where one of its bytes is a device's. -/
theorem State.read16Refusal_eq_none {s : State} {ea : Word} :
    s.read16Refusal ea = none ↔ ∀ a ∈ wordAt ea, s.kindAt a ≠ .device := by
  simp [read16Refusal, wordAt, readRefusal_eq_none]

/-- A 16-bit write is refused exactly where one of its bytes is not RAM. -/
theorem State.write16Refusal_eq_none {s : State} {ea : Word} :
    s.write16Refusal ea = none ↔ ∀ a ∈ wordAt ea, s.kindAt a = .ram := by
  simp [write16Refusal, wordAt, writeRefusal_eq_none]

theorem State.read16Refusal_eq_some {s : State} {ea : Word} {why : Refusal} (h : s.read16Refusal ea = some why) :
    ∃ a ∈ wordAt ea, s.kindAt a = .device ∧ why = .deviceAccess a := by
  rcases refusal_or_eq_some h with h | h
  · exact ⟨_, by simp [wordAt], readRefusal_eq_some.1 h⟩
  · exact ⟨_, by simp [wordAt], readRefusal_eq_some.1 h⟩

theorem State.write16Refusal_eq_some {s : State} {ea : Word} {why : Refusal} (h : s.write16Refusal ea = some why) :
    ∃ a ∈ wordAt ea, (s.kindAt a = .rom ∧ why = .romWrite a) ∨ (s.kindAt a = .device ∧ why = .deviceAccess a) := by
  rcases refusal_or_eq_some h with h | h
  · exact ⟨_, by simp [wordAt], writeRefusal_eq_some.1 h⟩
  · exact ⟨_, by simp [wordAt], writeRefusal_eq_some.1 h⟩

/-- A step that reads 16 bits: its next state, or a refusal at one of the two bytes. -/
theorem State.reading_spec {s t : State} {ea : Word} {P : State → Prop} (hP : P t) :
    s.Accesses (wordAt ea) [] (s.reading ea t) P := by
  refine ⟨fun hr _ => ⟨t, nextUnless_eq_next.2 ⟨read16Refusal_eq_none.2 hr, rfl⟩, hP⟩, fun h => ?_⟩
  cases hw : s.read16Refusal ea with
  | none =>
    obtain ⟨a, ha, hd⟩ : ∃ a ∈ wordAt ea, s.kindAt a = .device := by simpa using h
    exact absurd hd (read16Refusal_eq_none.1 hw a ha)
  | some why =>
    obtain ⟨a, ha, hd, rfl⟩ := read16Refusal_eq_some hw
    exact ⟨a, .inl ⟨.inl ha, hd, nextUnless_eq_refused.2 hw⟩⟩

/-- A step that writes 16 bits: its next state, or a refusal at one of the two bytes. -/
theorem State.writing_spec {s t : State} {ea : Word} {P : State → Prop} (hP : P t) :
    s.Accesses [] (wordAt ea) (s.writing ea t) P := by
  refine ⟨fun _ hr => ⟨t, nextUnless_eq_next.2 ⟨write16Refusal_eq_none.2 hr, rfl⟩, hP⟩, fun h => ?_⟩
  cases hw : s.write16Refusal ea with
  | none =>
    obtain ⟨a, ha, hd⟩ : ∃ a ∈ wordAt ea, s.kindAt a ≠ .ram := by simpa using h
    exact absurd (write16Refusal_eq_none.1 hw a ha) hd
  | some why =>
    obtain ⟨a, ha, ⟨hd, rfl⟩ | ⟨hd, rfl⟩⟩ := write16Refusal_eq_some hw
    · exact ⟨a, .inr ⟨ha, hd, nextUnless_eq_refused.2 hw⟩⟩
    · exact ⟨a, .inl ⟨.inr ha, hd, nextUnless_eq_refused.2 hw⟩⟩

/-- CAL and CAR: the state after the call, or a refusal at one of the four bytes. -/
theorem State.calling_spec {s : State} {target : Word} {P : State → Prop} (hP : P (s.call target)) :
    s.Accesses [] (wordAt s.sp ++ wordAt (s.sp - 2#16)) (s.calling target) P := by
  refine ⟨fun _ hr => ⟨_, nextUnless_eq_next.2 ⟨refusal_or_eq_none.2 ⟨?_, ?_⟩, rfl⟩, hP⟩, fun h => ?_⟩
  · exact write16Refusal_eq_none.2 fun a ha => hr a (List.mem_append.2 (.inl ha))
  · exact write16Refusal_eq_none.2 fun a ha => hr a (List.mem_append.2 (.inr ha))
  cases hw : (s.write16Refusal s.sp).or (s.write16Refusal (s.sp - 2#16)) with
  | none =>
    obtain ⟨h1, h2⟩ := refusal_or_eq_none.1 hw
    obtain ⟨a, ha, hd⟩ : ∃ a ∈ wordAt s.sp ++ wordAt (s.sp - 2#16), s.kindAt a ≠ .ram := by simpa using h
    rcases List.mem_append.1 ha with ha | ha
    · exact absurd (write16Refusal_eq_none.1 h1 a ha) hd
    · exact absurd (write16Refusal_eq_none.1 h2 a ha) hd
  | some why =>
    obtain ⟨a, ha, hd⟩ : ∃ a ∈ wordAt s.sp ++ wordAt (s.sp - 2#16),
        (s.kindAt a = .rom ∧ why = .romWrite a) ∨ (s.kindAt a = .device ∧ why = .deviceAccess a) := by
      rcases refusal_or_eq_some hw with hw | hw <;> obtain ⟨a, ha, hd⟩ := write16Refusal_eq_some hw
      · exact ⟨a, List.mem_append.2 (.inl ha), hd⟩
      · exact ⟨a, List.mem_append.2 (.inr ha), hd⟩
    rcases hd with ⟨hd, rfl⟩ | ⟨hd, rfl⟩
    · exact ⟨a, .inr ⟨ha, hd, nextUnless_eq_refused.2 hw⟩⟩
    · exact ⟨a, .inl ⟨.inr ha, hd, nextUnless_eq_refused.2 hw⟩⟩

/-! ## Shapes -/

/-- A frame from its nine parts. -/
theorem State.frame_intro {s t : State} {regs : List Reg} {bytes : List Word}
    (hreg : ∀ r, r ∉ regs → t.reg r = s.reg r) (hbyte : ∀ a, a ∉ bytes → t.byteAt a = s.byteAt a)
    (hrf : t.rf = s.rf) (hint : t.intState = s.intState) (hie : t.ie = s.ie) (hhalted : t.halted = s.halted)
    (hevents : t.events = s.events) (hdraws : t.draws = s.draws) (hplatform : t.platform = s.platform) :
    s.frame t regs bytes :=
  ⟨hreg, hbyte, hrf, hint, hie, hhalted, hevents, hdraws, hplatform⟩

/-- RS as `rsByte` of a 16-bit result holds its Z and S (10_state.md R29). -/
theorem State.flagsOf_of_rs {t : State} {v : Word} {c : Bool} (h : t.rs = rsByte (resultZ v) c (resultS v)) :
    t.flagsOf v.toNat c := by
  refine ⟨?_, ?_, ?_, ?_⟩ <;> rw [h]
  · rw [rsByte_z, Bool.eq_iff_iff]; simp [resultZ, ← BitVec.toNat_inj]
  · exact rsByte_c _ _ _
  · have hmsb : v.getLsbD 15 = v.msb := by simp [BitVec.msb_eq_getLsbD_last]
    rw [rsByte_s, resultS, hmsb, BitVec.msb_eq_decide]
  · exact rsByte_low _ _ _

/-- An arithmetic result: the destination, the three flags, the advance, and nothing else. -/
theorem State.writeArith_spec (s : State) (d : Reg) (v : Word) (c : Bool) (n : Nat) :
    (s.writeArith d v c n).reg d = v ∧ (s.writeArith d v c n).flagsOf v.toNat c ∧
    (s.writeArith d v c n).pc = s.npc n ∧ s.frame (s.writeArith d v c n) [d] [] := by
  refine ⟨by simp [writeArith], flagsOf_of_rs (by simp [writeArith]), by simp [writeArith, npc], ?_⟩
  apply frame_intro <;> simp [writeArith]
  exact fun r hr => setReg_reg_ne hr _ _

/-- A bitwise result: the destination, Z and S with C kept, the advance, and nothing else. -/
theorem State.writeLogic_spec (s : State) (d : Reg) (v : Word) (n : Nat) :
    (s.writeLogic d v n).reg d = v ∧ (s.writeLogic d v n).flagsOf v.toNat s.flagC ∧
    (s.writeLogic d v n).pc = s.npc n ∧ s.frame (s.writeLogic d v n) [d] [] := by
  refine ⟨by simp [writeLogic], flagsOf_of_rs (by simp [writeLogic]), by simp [writeLogic, npc], ?_⟩
  apply frame_intro <;> simp [writeLogic]
  exact fun r hr => setReg_reg_ne hr _ _

/-- A division by 0: the parameter DIV0 gives the destination and the flags (44_arithmetic.md R196). -/
theorem State.divide_zero_spec (s : State) (d : Reg) (a : Word) :
    (s.divide d a 0#16).reg d = Config.div0Result a ∧
    (s.divide d a 0#16).flagsAre (Config.div0Z a) (Config.div0C a) (Config.div0S a) ∧
    (s.divide d a 0#16).pc = s.npc 2 ∧ s.frame (s.divide d a 0#16) [d] [] := by
  simp only [divide, if_pos]
  refine ⟨by simp, ⟨rsByte_z _ _ _, rsByte_c _ _ _, rsByte_s _ _ _, rsByte_low _ _ _⟩, by simp [npc], ?_⟩
  apply frame_intro <;> simp
  exact fun r hr => setReg_reg_ne hr _ _

/-- A load: the destination, the advance, and nothing else. -/
theorem State.load_spec (s : State) (r : Reg) (ea : Word) (n : Nat) :
    (s.load r ea n).reg r = s.read16 ea ∧ (s.load r ea n).pc = s.npc n ∧ (s.load r ea n).rs = s.rs ∧
    s.frame (s.load r ea n) [r] [] := by
  refine ⟨by simp [load], by simp [load, npc], by simp [load], ?_⟩
  apply frame_intro <;> simp [load]
  exact fun q hq => setReg_reg_ne hq _ _

/-- A store: the two bytes, the advance, and nothing else. -/
theorem State.store_spec (s : State) (ea : Word) (r : Reg) (n : Nat) :
    (s.store ea r n).read16 ea = s.reg r ∧ (s.store ea r n).pc = s.npc n ∧ (s.store ea r n).rs = s.rs ∧
    s.frame (s.store ea r n) [] [ea, ea + 1#16] := by
  refine ⟨s.read16_write16 ea (s.reg r), by simp [store, npc], by simp [store], ?_⟩
  refine frame_intro (fun q _ => by simp [store]) (fun a ha => ?_) rfl rfl rfl rfl rfl rfl rfl
  simpa only [store, advance_byteAt] using s.byteAt_write16_outside ha

/-- A register jump changes PC alone (41_stack_and_jumps.md R153). -/
theorem State.jumpRegIf_spec (s : State) (c : Bool) (r : Reg) :
    s.jumpRegIf c r = { s with pc := if c then s.npc 1 + s.reg r else s.npc 1 } := by
  cases c <;> rfl

/-- An immediate jump changes PC alone (47_local_branch.md R241). -/
theorem State.jumpImmIf_spec (s : State) (c : Bool) (off : Byte) :
    s.jumpImmIf c off = { s with pc := if c then s.npc 2 + off8Word off else s.npc 2 } := by
  cases c <;> rfl

/-- CAL and CAR leave all but SP, PC and the four bytes of the stack (45_subroutine.md R210). -/
theorem State.call_frame (s : State) (target : Word) :
    s.frame (s.call target) [.sp] [s.sp, s.sp + 1#16, s.sp - 2#16, s.sp - 2#16 + 1#16] ∧
    (s.call target).rs = s.rs := by
  refine ⟨frame_intro (fun q hq => ?_) (fun a ha => ?_) (by simp [call]) (by simp [call]) (by simp [call])
    (by simp [call]) (by simp [call]) (by simp [call]) (by simp [call]), by simp [call]⟩
  · have h1 := (s.push16_spec (s.npc 3)).2.2.1 q (by simpa using hq)
    have h2 := ((s.push16 (s.npc 3)).push16_spec (s.push16 (s.npc 3)).sp).2.2.1 q (by simpa using hq)
    simp only [call, jump_reg, h2, h1]
  · simp only [List.mem_cons, List.not_mem_nil, or_false, not_or] at ha
    rw [(s.call_spec target).2.2, byteAt_write16_outside _ (by simp [ha]), byteAt_write16_outside _ (by simp [ha])]

theorem State.call_mem_wf {s : State} (h : Memory.wf s.mem = true) (target : Word) :
    Memory.wf (s.call target).mem = true := by
  simpa only [call, jump_mem] using push16_mem_wf (push16_mem_wf h (s.npc 3)) (s.push16 (s.npc 3)).sp

theorem State.store_mem_wf {s : State} (h : Memory.wf s.mem = true) (ea : Word) (r : Reg) (n : Nat) :
    Memory.wf (s.store ea r n).mem = true := by
  simpa only [store, advance_mem] using write16_mem_wf h ea (s.reg r)

/-- RCL and RCR leave all but SP and PC (R211). -/
theorem State.returnFrom_frame (s : State) (addr : Word) :
    s.frame (s.returnFrom addr) [.sp] [] ∧ (s.returnFrom addr).rs = s.rs := by
  refine ⟨frame_intro (fun q hq => ?_) (fun a _ => by simp [byteAt, (s.returnFrom_spec addr).2.2]) rfl rfl rfl rfl rfl rfl rfl,
    rfl⟩
  cases q <;> first | rfl | simp at hq

end Sys2Proof.Machine
end

