-- ==== Sys2Proof/Laws/PerInstr.lean ====
section
/-! SUPPORT. The families of statements about every instruction, one lemma per constructor. -/

namespace Sys2Proof.Laws.EncodingLength

/-- The first byte of an encoding alone gives its length (30_encoding.md R90). -/
def Statement (i : Instr) : Prop := (encode i).length = lengthOf ((encode i).getD 0 0#8)

theorem nop : Statement (.nop) := rfl
theorem int : Statement (.int) := rfl
theorem eni : Statement (.eni) := rfl
theorem dei : Statement (.dei) := rfl
theorem rst : Statement (.rst) := rfl
theorem hlt : Statement (.hlt) := rfl
theorem cmp : Statement (.cmp) := rfl
theorem ret : Statement (.ret) := rfl
theorem pus (r : Reg) : Statement (.pus r) := by cases r <;> rfl
theorem pop (r : Reg) : Statement (.pop r) := by cases r <;> rfl
theorem ljp (addr16 : Word) : Statement (.ljp addr16) := rfl
theorem jmp (r : Reg) : Statement (.jmp r) := by cases r <;> rfl
theorem jiz (r : Reg) : Statement (.jiz r) := by cases r <;> rfl
theorem jnz (r : Reg) : Statement (.jnz r) := by cases r <;> rfl
theorem jlt (r : Reg) : Statement (.jlt r) := by cases r <;> rfl
theorem jge (r : Reg) : Statement (.jge r) := by cases r <;> rfl
theorem jof (r : Reg) : Statement (.jof r) := by cases r <;> rfl
theorem jnf (r : Reg) : Statement (.jnf r) := by cases r <;> rfl
theorem mov (rM : Reg) (rL : Reg) : Statement (.mov rM rL) := by cases rM <;> cases rL <;> rfl
theorem lod (rM : Reg) (rL : Reg) : Statement (.lod rM rL) := by cases rM <;> cases rL <;> rfl
theorem sto (rM : Reg) (rL : Reg) : Statement (.sto rM rL) := by cases rM <;> cases rL <;> rfl
theorem neg (r : Reg) : Statement (.neg r) := by cases r <;> rfl
theorem not (r : Reg) : Statement (.not r) := by cases r <;> rfl
theorem and (rM : Reg) (rL : Reg) : Statement (.and rM rL) := by cases rM <;> cases rL <;> rfl
theorem ior (rM : Reg) (rL : Reg) : Statement (.ior rM rL) := by cases rM <;> cases rL <;> rfl
theorem xor (rM : Reg) (rL : Reg) : Statement (.xor rM rL) := by cases rM <;> cases rL <;> rfl
theorem addR (rM : Reg) (rL : Reg) : Statement (.addR rM rL) := rfl
theorem subR (rM : Reg) (rL : Reg) : Statement (.subR rM rL) := rfl
theorem mulR (rM : Reg) (rL : Reg) : Statement (.mulR rM rL) := rfl
theorem divR (rM : Reg) (rL : Reg) : Statement (.divR rM rL) := rfl
theorem addI (imm4 : BitVec 4) (r : Reg) (ign : BitVec 2) : Statement (.addI imm4 r ign) := rfl
theorem subI (imm4 : BitVec 4) (r : Reg) (ign : BitVec 2) : Statement (.subI imm4 r ign) := rfl
theorem mulI (imm4 : BitVec 4) (r : Reg) (ign : BitVec 2) : Statement (.mulI imm4 r ign) := rfl
theorem divI (imm4 : BitVec 4) (r : Reg) (ign : BitVec 2) : Statement (.divI imm4 r ign) := rfl
theorem cal (addr16 : Word) : Statement (.cal addr16) := rfl
theorem rcl (addr16 : Word) : Statement (.rcl addr16) := rfl
theorem car (ign : BitVec 2) (r : Reg) (off12 : BitVec 12) : Statement (.car ign r off12) := rfl
theorem rcr (ign : BitVec 2) (r : Reg) (off12 : BitVec 12) : Statement (.rcr ign r off12) := rfl
theorem irf (mask8 : Byte) : Statement (.irf mask8) := rfl
theorem rolR (rM : Reg) (rL : Reg) : Statement (.rolR rM rL) := rfl
theorem rorR (rM : Reg) (rL : Reg) : Statement (.rorR rM rL) := rfl
theorem shlR (rM : Reg) (rL : Reg) : Statement (.shlR rM rL) := rfl
theorem shrR (rM : Reg) (rL : Reg) : Statement (.shrR rM rL) := rfl
theorem rolI (imm4 : BitVec 4) (r : Reg) (ign : BitVec 2) : Statement (.rolI imm4 r ign) := rfl
theorem rorI (imm4 : BitVec 4) (r : Reg) (ign : BitVec 2) : Statement (.rorI imm4 r ign) := rfl
theorem shlI (imm4 : BitVec 4) (r : Reg) (ign : BitVec 2) : Statement (.shlI imm4 r ign) := rfl
theorem shrI (imm4 : BitVec 4) (r : Reg) (ign : BitVec 2) : Statement (.shrI imm4 r ign) := rfl
theorem cli (mZ : Bool) (mC : Bool) (mS : Bool) (ign : BitVec 5) : Statement (.cli mZ mC mS ign) := rfl
theorem jmi (off8 : Byte) : Statement (.jmi off8) := rfl
theorem jzi (off8 : Byte) : Statement (.jzi off8) := rfl
theorem jni (off8 : Byte) : Statement (.jni off8) := rfl
theorem jli (off8 : Byte) : Statement (.jli off8) := rfl
theorem jgi (off8 : Byte) : Statement (.jgi off8) := rfl
theorem joi (off8 : Byte) : Statement (.joi off8) := rfl
theorem jui (off8 : Byte) : Statement (.jui off8) := rfl
theorem ldi (imm4 : BitVec 4) (rM : Reg) (rL : Reg) : Statement (.ldi imm4 rM rL) := rfl
theorem sti (imm4 : BitVec 4) (rM : Reg) (rL : Reg) : Statement (.sti imm4 rM rL) := rfl
theorem lri (imm2 : BitVec 2) (rM : Reg) (rMid : Reg) (rL : Reg) : Statement (.lri imm2 rM rMid rL) := rfl
theorem sri (imm2 : BitVec 2) (rM : Reg) (rMid : Reg) (rL : Reg) : Statement (.sri imm2 rM rMid rL) := rfl
theorem mvi (r : Reg) (imm16 : Word) : Statement (.mvi r imm16) := by cases r <;> rfl
theorem inc (r : Reg) : Statement (.inc r) := by cases r <;> rfl
theorem dec (r : Reg) : Statement (.dec r) := by cases r <;> rfl
theorem reserved0A (low : BitVec 1) : Statement (.reserved0A low) := by unfold Statement; revert low; decide
theorem reserved0C (low : BitVec 2) : Statement (.reserved0C low) := by unfold Statement; revert low; decide
theorem reserved18 (low : BitVec 2) : Statement (.reserved18 low) := by unfold Statement; revert low; decide
theorem reserved1C (low : BitVec 1) : Statement (.reserved1C low) := by unfold Statement; revert low; decide
theorem reserved1E : Statement (.reserved1E) := rfl
theorem reserved40 (low : BitVec 4) : Statement (.reserved40 low) := by unfold Statement; revert low; decide
theorem reserved88 (low : BitVec 3) : Statement (.reserved88 low) := by unfold Statement; revert low; decide
theorem unlisted06 (low : BitVec 1) : Statement (.unlisted06 low) := by unfold Statement; revert low; decide
theorem unlisted20 (low : BitVec 2) : Statement (.unlisted20 low) := by unfold Statement; revert low; decide
theorem unlistedC4 (low : BitVec 2) : Statement (.unlistedC4 low) := by unfold Statement; revert low; decide
theorem unlistedC8 (low : BitVec 3) : Statement (.unlistedC8 low) := by unfold Statement; revert low; decide
theorem unlistedD4 (low : BitVec 2) : Statement (.unlistedD4 low) := by unfold Statement; revert low; decide
theorem unlistedD8 (low : BitVec 3) : Statement (.unlistedD8 low) := by unfold Statement; revert low; decide
theorem unlistedE0 (low : BitVec 1) : Statement (.unlistedE0 low) := by unfold Statement; revert low; decide
theorem unlistedE2 : Statement (.unlistedE2) := rfl

end Sys2Proof.Laws.EncodingLength
end

