-- ==== Sys2Proof/Tests/Slice0.lean ====
section
/-! SUPPORT. The model's own tests. Decode words are written out from the encodings of spec/30_encoding.md; the step
vectors and their expected results are those of spec/95_test_vectors.md, under the identifiers of that file. -/

namespace Sys2Proof.Tests

open Sys2Proof.Machine

/-- Put bytes into memory from `pc` on. -/
def loadFrom : Word → List Byte → State → State
  | _, [], s => s
  | a, b :: bs, s => loadFrom (a + 1#16) bs (s.writeByte a b)

/-- A state with the bytes at its PC. -/
def load (bytes : List Byte) (s : State) : State := loadFrom s.pc bytes s

/-- What one step leaves, where it answers a next state. -/
def after {α : Type} (s : State) (view : State → α) : Option α :=
  match step s with
  | .next t => some (view t)
  | _ => none

/-- The fault one step ends in. -/
def faultOf (s : State) : Option Fault :=
  match step s with
  | .fault f => some f
  | _ => none

/-- The bytes decode to exactly this instruction, which is well-formed and encodes to them. -/
def reads (bytes : List Byte) (i : Instr) : Bool :=
  (match decode bytes with
    | .ok (j, rest) => j = i && rest.isEmpty
    | .error _ => false) && i.wf && encode i = bytes

/-! ## WellFormed: an ill-formed term for each check (R96) -/

theorem test_wf_refuses_addI_with_imm4_zero : Instr.wf (.addI 0#4 .ax 0#2) = false := by decide
theorem test_wf_refuses_subI_with_imm4_zero : Instr.wf (.subI 0#4 .ax 0#2) = false := by decide
theorem test_wf_refuses_mulI_with_imm4_zero : Instr.wf (.mulI 0#4 .ax 0#2) = false := by decide
theorem test_wf_refuses_divI_with_imm4_zero : Instr.wf (.divI 0#4 .ax 0#2) = false := by decide
theorem test_wf_refuses_rolI_with_imm4_zero : Instr.wf (.rolI 0#4 .ax 0#2) = false := by decide
theorem test_wf_refuses_rorI_with_imm4_zero : Instr.wf (.rorI 0#4 .ax 0#2) = false := by decide
theorem test_wf_refuses_shlI_with_imm4_zero : Instr.wf (.shlI 0#4 .ax 0#2) = false := by decide
theorem test_wf_refuses_shrI_with_imm4_zero : Instr.wf (.shrI 0#4 .ax 0#2) = false := by decide

theorem test_wf_accepts : Instr.wf (.addI 1#4 .sp 3#2) = true ∧ Instr.wf (.ldi 0#4 .ax .ax) = true := by decide

/-! ## Decoding, a word for every constructor -/

theorem test_decode_control :
    reads [0b00000000#8] (.nop) ∧
    reads [0b00000001#8] (.int) ∧
    reads [0b00000010#8] (.eni) ∧
    reads [0b00000011#8] (.dei) ∧
    reads [0b00000100#8] (.rst) ∧
    reads [0b00000101#8] (.hlt) ∧
    reads [0b00001000#8] (.cmp) ∧
    reads [0b00001001#8] (.ret) := by
  decide

theorem test_decode_stack_and_jumps :
    reads [0b00010011#8] (.pus .sp) ∧
    reads [0b00010110#8] (.pop .cx) ∧
    reads [0b00011111#8, 0b00010010#8, 0b00110100#8] (.ljp 0x1234#16) ∧
    reads [0b00100101#8] (.jmp .bx) ∧
    reads [0b00101010#8] (.jiz .cx) ∧
    reads [0b00101110#8] (.jnz .cx) ∧
    reads [0b00110011#8] (.jlt .sp) ∧
    reads [0b00110101#8] (.jge .bx) ∧
    reads [0b00111011#8] (.jof .sp) ∧
    reads [0b00111100#8] (.jnf .ax) := by
  decide

theorem test_decode_move_load_store :
    reads [0b01011100#8] (.mov .sp .ax) ∧
    reads [0b01101001#8] (.lod .cx .bx) ∧
    reads [0b01110100#8] (.sto .bx .ax) := by
  decide

theorem test_decode_bitwise :
    reads [0b10000001#8] (.neg .bx) ∧
    reads [0b10000110#8] (.not .cx) ∧
    reads [0b10011000#8] (.and .cx .ax) ∧
    reads [0b10100111#8] (.ior .bx .sp) ∧
    reads [0b10110001#8] (.xor .ax .bx) := by
  decide

theorem test_decode_arithmetic_register_form :
    reads [0b11000000#8, 0b00001011#8] (.addR .cx .sp) ∧
    reads [0b11000001#8, 0b00000001#8] (.subR .ax .bx) ∧
    reads [0b11000010#8, 0b00000110#8] (.mulR .bx .cx) ∧
    reads [0b11000011#8, 0b00001101#8] (.divR .sp .bx) := by
  decide

theorem test_decode_arithmetic_immediate_form :
    reads [0b11000000#8, 0b00111000#8] (.addI 3#4 .cx 0#2) ∧
    reads [0b11000001#8, 0b00010100#8] (.subI 1#4 .bx 0#2) ∧
    reads [0b11000010#8, 0b10001101#8] (.mulI 8#4 .sp 1#2) ∧
    reads [0b11000011#8, 0b11110111#8] (.divI 15#4 .bx 3#2) := by
  decide

theorem test_decode_subroutine :
    reads [0b11010000#8, 0b00000000#8, 0b00010000#8] (.cal 0x0010#16) ∧
    reads [0b11010001#8, 0b00000001#8, 0b11111110#8] (.rcl 0x01FE#16) ∧
    reads [0b11010010#8, 0b00011111#8, 0b11111111#8] (.car 0#2 .bx 0xFFF#12) ∧
    reads [0b11010011#8, 0b10110000#8, 0b00000010#8] (.rcr 2#2 .sp 0x002#12) := by
  decide

theorem test_decode_irf_and_shift_register_form :
    reads [0b11100011#8, 0b11100000#8] (.irf 0xE0#8) ∧
    reads [0b11100100#8, 0b00000001#8] (.rolR .ax .bx) ∧
    reads [0b11100101#8, 0b00001011#8] (.rorR .cx .sp) ∧
    reads [0b11100110#8, 0b00001101#8] (.shlR .sp .bx) ∧
    reads [0b11100111#8, 0b00000010#8] (.shrR .ax .cx) := by
  decide

theorem test_decode_shift_immediate_form :
    reads [0b11100100#8, 0b01001000#8] (.rolI 4#4 .cx 0#2) ∧
    reads [0b11100101#8, 0b11110000#8] (.rorI 15#4 .ax 0#2) ∧
    reads [0b11100110#8, 0b00010111#8] (.shlI 1#4 .bx 3#2) ∧
    reads [0b11100111#8, 0b10001100#8] (.shrI 8#4 .sp 0#2) := by
  decide

theorem test_decode_local_branch :
    reads [0b11101000#8, 0b11000001#8] (.cli true true false 1#5) ∧
    reads [0b11101001#8, 0b00010000#8] (.jmi 0x10#8) ∧
    reads [0b11101010#8, 0b00000100#8] (.jzi 0x04#8) ∧
    reads [0b11101011#8, 0b11111011#8] (.jni 0xFB#8) ∧
    reads [0b11101100#8, 0b01111111#8] (.jli 0x7F#8) ∧
    reads [0b11101101#8, 0b10000000#8] (.jgi 0x80#8) ∧
    reads [0b11101110#8, 0b00000010#8] (.joi 0x02#8) ∧
    reads [0b11101111#8, 0b00000011#8] (.jui 0x03#8) := by
  decide

theorem test_decode_indexed_memory :
    reads [0b11110000#8, 0b00100001#8] (.ldi 2#4 .ax .bx) ∧
    reads [0b11110001#8, 0b00100110#8] (.sti 2#4 .bx .cx) ∧
    reads [0b11110010#8, 0b01001001#8] (.lri 1#2 .ax .cx .bx) ∧
    reads [0b11110011#8, 0b10100100#8] (.sri 2#2 .cx .bx .ax) := by
  decide

theorem test_decode_immediate_and_increment :
    reads [0b11110111#8, 0b00000001#8, 0b00000010#8] (.mvi .sp 0x0102#16) ∧
    reads [0b11111010#8] (.inc .cx) ∧
    reads [0b11111111#8] (.dec .sp) := by
  decide

theorem test_decode_reserved :
    reads [0b00001011#8] (.reserved0A 1#1) ∧
    reads [0b00001110#8] (.reserved0C 2#2) ∧
    reads [0b00011001#8] (.reserved18 1#2) ∧
    reads [0b00011101#8] (.reserved1C 1#1) ∧
    reads [0b00011110#8] (.reserved1E) ∧
    reads [0b01001010#8] (.reserved40 10#4) ∧
    reads [0b10001110#8] (.reserved88 6#3) := by
  decide

theorem test_decode_unlisted :
    reads [0b00000111#8] (.unlisted06 1#1) ∧
    reads [0b00100010#8] (.unlisted20 2#2) ∧
    reads [0b11000101#8] (.unlistedC4 1#2) ∧
    reads [0b11001100#8] (.unlistedC8 4#3) ∧
    reads [0b11010111#8] (.unlistedD4 3#2) ∧
    reads [0b11011011#8] (.unlistedD8 3#3) ∧
    reads [0b11100001#8] (.unlistedE0 1#1) ∧
    reads [0b11100010#8] (.unlistedE2) := by
  decide

theorem test_decode_truncated :
    decode [0xD0#8, 0x00#8] = .error (.truncated 3 2) ∧ decode [] = .error .noBytes :=
  ⟨rfl, rfl⟩

/-- The table reads an instruction as one big-endian number (log 15). -/
theorem test_table_word :
    decodeTableWord 24 0x1F1234 = some (.ljp 0x1234#16) ∧ decodeTableWord 16 0xC001 = some (.addR .ax .bx) ∧
    decodeTableWord 8 0x1F = some (.ljp 0#16) := by
  decide

/-! ## One step of each instruction -/

/-- T40.1: NOP. -/
theorem test_step_T40_1_nop :
    after (load [0x00#8] { State.reset with pc := 0xFFFF#16, rs := 0x00#8 }) (fun t => (t.pc, t.rs)) =
      some (0x0000#16, 0x00#8) := by decide

/-- T40.4: ENI. -/
theorem test_step_T40_4_eni :
    after (load [0x02#8] { State.reset with pc := 0x0003#16, rs := 0x00#8, rf := 0xE0#8, ie := false }) (fun t => (t.pc, t.rs, t.rf, t.ie)) =
      some (0x0004#16, 0x00#8, 0x00#8, true) := by decide

/-- T40.6b: DEI. -/
theorem test_step_T40_6b_dei :
    after (load [0x03#8] { State.reset with pc := 0x0008#16, rs := 0x00#8, rf := 0x20#8, ie := false }) (fun t => (t.pc, t.rs, t.rf, t.ie)) =
      some (0x0009#16, 0x00#8, 0x20#8, false) := by decide

/-- T40.7: HLT. -/
theorem test_step_T40_7_hlt :
    after (load [0x05#8] { State.reset with pc := 0x000B#16, rs := 0x00#8, rf := 0x40#8, ie := false }) (fun t => (t.pc, t.rs, t.rf, t.ie, t.halted)) =
      some (0x000C#16, 0x00#8, 0x00#8, false, true) := by decide

/-- T40.8: CMP. -/
theorem test_step_T40_8_cmp :
    after (load [0x08#8] { State.reset with ax := 0x1234#16, bx := 0x1234#16, pc := 0x0100#16, rs := 0x60#8 }) (fun t => (t.pc, t.rs)) =
      some (0x0101#16, 0xE0#8) := by decide

/-- T40.9: CMP. -/
theorem test_step_T40_9_cmp :
    after (load [0x08#8] { State.reset with ax := 0x1234#16, bx := 0x1235#16, pc := 0x0100#16, rs := 0xE0#8 }) (fun t => (t.pc, t.rs)) =
      some (0x0101#16, 0x60#8) := by decide

/-- T40.11: RET. -/
theorem test_step_T40_11_ret :
    after (load [0x09#8] { State.reset with intState := ⟨0x5#16, 0x6#16, 0x7#16, 0x200#16, 0x101#16, 0x80#8, 0x40#8, 0#8, true⟩, ax := 0x0029#16, bx := 0x0300#16, cx := 0x0000#16, sp := 0x01F0#16, pc := 0x0047#16, rs := 0x00#8, rf := 0x60#8, ie := false }) (fun t => ((t.ax, t.bx, t.cx, t.sp), t.pc, t.rs, t.rf, t.ie)) =
      some ((0x0005#16, 0x0006#16, 0x0007#16, 0x0200#16), 0x0101#16, 0x80#8, 0x00#8, true) := by decide

/-- T41.2: PUS SP. -/
theorem test_step_T41_2_pus_sp :
    after (load [0x13#8] { State.reset with sp := 0x0100#16, pc := 0x0010#16, rs := 0x00#8 }) (fun t => (t.sp, t.pc, t.rs, t.byteAt 0x0100#16, t.byteAt 0x0101#16)) =
      some (0x00FE#16, 0x0011#16, 0x00#8, 0x01#8, 0x00#8) := by decide

/-- T41.3: PUS BX. -/
theorem test_step_T41_3_pus_bx :
    after (load [0x11#8] { State.reset with bx := 0xABCD#16, sp := 0xFFFF#16, pc := 0x0010#16, rs := 0x00#8 }) (fun t => (t.sp, t.pc, t.rs, t.byteAt 0x0000#16, t.byteAt 0xFFFF#16)) =
      some (0xFFFD#16, 0x0011#16, 0x00#8, 0xCD#8, 0xAB#8) := by decide

/-- T41.7: POP SP. -/
theorem test_step_T41_7_pop_sp :
    after (load [0x17#8] (State.write16 0x0100#16 0x0300#16 { State.reset with sp := 0x00FE#16, pc := 0x0010#16, rs := 0x00#8 })) (fun t => (t.sp, t.pc, t.rs)) =
      some (0x0300#16, 0x0011#16, 0x00#8) := by decide

/-- T41.8: POP AX. -/
theorem test_step_T41_8_pop_ax :
    after (load [0x14#8] (State.write16 0x0000#16 0x5566#16 { State.reset with sp := 0xFFFE#16, pc := 0x0010#16, rs := 0x00#8 })) (fun t => (t.ax, t.sp, t.pc, t.rs)) =
      some (0x5566#16, 0x0000#16, 0x0011#16, 0x00#8) := by decide

/-- T41.10: LJP 0x1234. -/
theorem test_step_T41_10_ljp_0x1234 :
    after (load [0x1F#8, 0x12#8, 0x34#8] { State.reset with pc := 0x0010#16, rs := 0x00#8 }) (fun t => (t.pc, t.rs)) =
      some (0x1234#16, 0x00#8) := by decide

/-- T41.13: JMP CX. -/
theorem test_step_T41_13_jmp_cx :
    after (load [0x26#8] { State.reset with cx := 0xFFF0#16, pc := 0x0010#16, rs := 0x00#8 }) (fun t => (t.pc, t.rs)) =
      some (0x0001#16, 0x00#8) := by decide

/-- T41.16: JIZ AX. -/
theorem test_step_T41_16_jiz_ax :
    after (load [0x28#8] { State.reset with ax := 0x0004#16, pc := 0x0020#16, rs := 0x80#8 }) (fun t => (t.pc, t.rs)) =
      some (0x0025#16, 0x80#8) := by decide

/-- T41.17: JIZ AX. -/
theorem test_step_T41_17_jiz_ax :
    after (load [0x28#8] { State.reset with ax := 0x0004#16, pc := 0x0020#16, rs := 0x60#8 }) (fun t => (t.pc, t.rs)) =
      some (0x0021#16, 0x60#8) := by decide

/-- T41.18: JNZ BX. -/
theorem test_step_T41_18_jnz_bx :
    after (load [0x2D#8] { State.reset with bx := 0xFFFD#16, pc := 0x0020#16, rs := 0x00#8 }) (fun t => (t.pc, t.rs)) =
      some (0x001E#16, 0x00#8) := by decide

/-- T41.19: JNZ BX. -/
theorem test_step_T41_19_jnz_bx :
    after (load [0x2D#8] { State.reset with bx := 0xFFFD#16, pc := 0x0020#16, rs := 0x80#8 }) (fun t => (t.pc, t.rs)) =
      some (0x0021#16, 0x80#8) := by decide

/-- T41.20: JLT CX. -/
theorem test_step_T41_20_jlt_cx :
    after (load [0x32#8] { State.reset with cx := 0x0010#16, pc := 0x0030#16, rs := 0x20#8 }) (fun t => (t.pc, t.rs)) =
      some (0x0041#16, 0x20#8) := by decide

/-- T41.21: JLT CX. -/
theorem test_step_T41_21_jlt_cx :
    after (load [0x32#8] { State.reset with cx := 0x0010#16, pc := 0x0030#16, rs := 0xC0#8 }) (fun t => (t.pc, t.rs)) =
      some (0x0031#16, 0xC0#8) := by decide

/-- T41.22: JGE CX. -/
theorem test_step_T41_22_jge_cx :
    after (load [0x36#8] { State.reset with cx := 0x0010#16, pc := 0x0030#16, rs := 0x00#8 }) (fun t => (t.pc, t.rs)) =
      some (0x0041#16, 0x00#8) := by decide

/-- T41.23: JGE CX. -/
theorem test_step_T41_23_jge_cx :
    after (load [0x36#8] { State.reset with cx := 0x0010#16, pc := 0x0030#16, rs := 0x20#8 }) (fun t => (t.pc, t.rs)) =
      some (0x0031#16, 0x20#8) := by decide

/-- T41.24: JOF AX. -/
theorem test_step_T41_24_jof_ax :
    after (load [0x38#8] { State.reset with ax := 0x0002#16, pc := 0x0040#16, rs := 0x40#8 }) (fun t => (t.pc, t.rs)) =
      some (0x0043#16, 0x40#8) := by decide

/-- T41.25: JOF AX. -/
theorem test_step_T41_25_jof_ax :
    after (load [0x38#8] { State.reset with ax := 0x0002#16, pc := 0x0040#16, rs := 0xA0#8 }) (fun t => (t.pc, t.rs)) =
      some (0x0041#16, 0xA0#8) := by decide

/-- T41.26: JNF SP. -/
theorem test_step_T41_26_jnf_sp :
    after (load [0x3F#8] { State.reset with sp := 0x0002#16, pc := 0x0040#16, rs := 0x00#8 }) (fun t => (t.pc, t.rs)) =
      some (0x0043#16, 0x00#8) := by decide

/-- T41.27: JNF SP. -/
theorem test_step_T41_27_jnf_sp :
    after (load [0x3F#8] { State.reset with sp := 0x0002#16, pc := 0x0040#16, rs := 0x40#8 }) (fun t => (t.pc, t.rs)) =
      some (0x0041#16, 0x40#8) := by decide

/-- T42.1: MOV AX, BX. -/
theorem test_step_T42_1_mov_ax_bx :
    after (load [0x51#8] { State.reset with ax := 0x0000#16, bx := 0xBEEF#16, pc := 0x0100#16, rs := 0xE0#8 }) (fun t => (t.ax, t.pc, t.rs)) =
      some (0xBEEF#16, 0x0101#16, 0xE0#8) := by decide

/-- T42.5: LOD BX, [BX]. -/
theorem test_step_T42_5_lod_bx_bx :
    after (load [0x65#8] (State.write16 0x0100#16 0x0200#16 { State.reset with bx := 0x0100#16, pc := 0x0010#16, rs := 0x00#8 })) (fun t => (t.bx, t.pc, t.rs)) =
      some (0x0200#16, 0x0011#16, 0x00#8) := by decide

/-- T42.6: LOD AX, [SP]. -/
theorem test_step_T42_6_lod_ax_sp :
    after (load [0x63#8] (State.write16 0xFFFF#16 0xA1B2#16 { State.reset with sp := 0xFFFF#16, pc := 0x0010#16, rs := 0x00#8 })) (fun t => (t.ax, t.pc, t.rs)) =
      some (0xA1B2#16, 0x0011#16, 0x00#8) := by decide

/-- T42.8: STO [BX], CX. -/
theorem test_step_T42_8_sto_bx_cx :
    after (load [0x76#8] { State.reset with bx := 0x0100#16, cx := 0xABCD#16, pc := 0x0010#16, rs := 0x00#8 }) (fun t => (t.pc, t.rs, t.byteAt 0x0100#16, t.byteAt 0x0101#16)) =
      some (0x0011#16, 0x00#8, 0xAB#8, 0xCD#8) := by decide

/-- T42.10: STO [CX], BX. -/
theorem test_step_T42_10_sto_cx_bx :
    after (load [0x79#8] { State.reset with bx := 0x1122#16, cx := 0xFFFF#16, pc := 0x0010#16, rs := 0x00#8 }) (fun t => (t.pc, t.rs, t.byteAt 0x0000#16, t.byteAt 0xFFFF#16)) =
      some (0x0011#16, 0x00#8, 0x22#8, 0x11#8) := by decide

/-- T43.1: NEG AX. -/
theorem test_step_T43_1_neg_ax :
    after (load [0x80#8] { State.reset with ax := 0x0005#16, pc := 0x0100#16, rs := 0x40#8 }) (fun t => (t.ax, t.pc, t.rs)) =
      some (0xFFFB#16, 0x0101#16, 0x60#8) := by decide

/-- T43.3: NEG CX. -/
theorem test_step_T43_3_neg_cx :
    after (load [0x82#8] { State.reset with cx := 0x8000#16, pc := 0x0100#16, rs := 0x00#8 }) (fun t => (t.pc, t.rs)) =
      some (0x0101#16, 0x20#8) := by decide

/-- T43.5: NOT BX. -/
theorem test_step_T43_5_not_bx :
    after (load [0x85#8] { State.reset with bx := 0x00FF#16, pc := 0x0100#16, rs := 0x00#8 }) (fun t => (t.bx, t.pc, t.rs)) =
      some (0xFF00#16, 0x0101#16, 0x20#8) := by decide

/-- T43.6: NOT AX. -/
theorem test_step_T43_6_not_ax :
    after (load [0x84#8] { State.reset with ax := 0xFFFF#16, pc := 0x0100#16, rs := 0x60#8 }) (fun t => (t.ax, t.pc, t.rs)) =
      some (0x0000#16, 0x0101#16, 0xC0#8) := by decide

/-- T43.7: AND AX, BX. -/
theorem test_step_T43_7_and_ax_bx :
    after (load [0x91#8] { State.reset with ax := 0x0FF0#16, bx := 0x00FF#16, pc := 0x0100#16, rs := 0x00#8 }) (fun t => (t.ax, t.pc, t.rs)) =
      some (0x00F0#16, 0x0101#16, 0x00#8) := by decide

/-- T43.8: AND CX, AX. -/
theorem test_step_T43_8_and_cx_ax :
    after (load [0x98#8] { State.reset with ax := 0x0FFF#16, cx := 0xF000#16, pc := 0x0100#16, rs := 0x40#8 }) (fun t => (t.cx, t.pc, t.rs)) =
      some (0x0000#16, 0x0101#16, 0xC0#8) := by decide

/-- T43.10: IOR CX, AX. -/
theorem test_step_T43_10_ior_cx_ax :
    after (load [0xA8#8] { State.reset with ax := 0x0001#16, cx := 0x8000#16, pc := 0x0100#16, rs := 0x00#8 }) (fun t => (t.cx, t.pc, t.rs)) =
      some (0x8001#16, 0x0101#16, 0x20#8) := by decide

/-- T43.11: IOR AX, AX. -/
theorem test_step_T43_11_ior_ax_ax :
    after (load [0xA0#8] { State.reset with ax := 0x0000#16, pc := 0x0100#16, rs := 0x00#8 }) (fun t => (t.pc, t.rs)) =
      some (0x0101#16, 0x80#8) := by decide

/-- T43.12: XOR BX, BX. -/
theorem test_step_T43_12_xor_bx_bx :
    after (load [0xB5#8] { State.reset with bx := 0x1234#16, pc := 0x0100#16, rs := 0x20#8 }) (fun t => (t.bx, t.pc, t.rs)) =
      some (0x0000#16, 0x0101#16, 0x80#8) := by decide

/-- T43.13: XOR AX, SP. -/
theorem test_step_T43_13_xor_ax_sp :
    after (load [0xB3#8] { State.reset with ax := 0xFF00#16, sp := 0x0FF0#16, pc := 0x0100#16, rs := 0x00#8 }) (fun t => (t.ax, t.pc, t.rs)) =
      some (0xF0F0#16, 0x0101#16, 0x20#8) := by decide

/-- T44.2: ADD CX, #3. -/
theorem test_step_T44_2_add_cx_3 :
    after (load [0xC0#8, 0x38#8] { State.reset with cx := 0xFFFE#16, pc := 0x0100#16, rs := 0x00#8 }) (fun t => (t.cx, t.pc, t.rs)) =
      some (0x0001#16, 0x0102#16, 0x40#8) := by decide

/-- T44.3: ADD CX, #3. -/
theorem test_step_T44_3_add_cx_3 :
    after (load [0xC0#8, 0x3B#8] { State.reset with cx := 0xFFFE#16, pc := 0x0100#16, rs := 0x00#8 }) (fun t => (t.cx, t.pc, t.rs)) =
      some (0x0001#16, 0x0102#16, 0x40#8) := by decide

/-- T44.4: ADD AX, BX. -/
theorem test_step_T44_4_add_ax_bx :
    after (load [0xC0#8, 0x01#8] { State.reset with ax := 0xFFFF#16, bx := 0x0001#16, pc := 0x0100#16, rs := 0x00#8 }) (fun t => (t.ax, t.pc, t.rs)) =
      some (0x0000#16, 0x0102#16, 0xC0#8) := by decide

/-- T44.6: ADD BX, BX. -/
theorem test_step_T44_6_add_bx_bx :
    after (load [0xC0#8, 0x05#8] { State.reset with bx := 0x8001#16, pc := 0x0100#16, rs := 0x00#8 }) (fun t => (t.bx, t.pc, t.rs)) =
      some (0x0002#16, 0x0102#16, 0x40#8) := by decide

/-- T44.9: SUB BX, #1. -/
theorem test_step_T44_9_sub_bx_1 :
    after (load [0xC1#8, 0x14#8] { State.reset with bx := 0x0005#16, pc := 0x0100#16, rs := 0x00#8 }) (fun t => (t.bx, t.pc, t.rs)) =
      some (0x0004#16, 0x0102#16, 0x00#8) := by decide

/-- T44.10: SUB AX, BX. -/
theorem test_step_T44_10_sub_ax_bx :
    after (load [0xC1#8, 0x01#8] { State.reset with ax := 0x0003#16, bx := 0x0005#16, pc := 0x0100#16, rs := 0x00#8 }) (fun t => (t.ax, t.pc, t.rs)) =
      some (0xFFFE#16, 0x0102#16, 0x60#8) := by decide

/-- T44.12: SUB AX, #1. -/
theorem test_step_T44_12_sub_ax_1 :
    after (load [0xC1#8, 0x10#8] { State.reset with ax := 0x0000#16, pc := 0x0100#16, rs := 0x00#8 }) (fun t => (t.ax, t.pc, t.rs)) =
      some (0xFFFF#16, 0x0102#16, 0x60#8) := by decide

/-- T44.14: SUB CX, CX. -/
theorem test_step_T44_14_sub_cx_cx :
    after (load [0xC1#8, 0x0A#8] { State.reset with cx := 0x4321#16, pc := 0x0100#16, rs := 0x60#8 }) (fun t => (t.cx, t.pc, t.rs)) =
      some (0x0000#16, 0x0102#16, 0x80#8) := by decide

/-- T44.16: MUL AX, BX. -/
theorem test_step_T44_16_mul_ax_bx :
    after (load [0xC2#8, 0x01#8] { State.reset with ax := 0x0100#16, bx := 0x0100#16, pc := 0x0100#16, rs := 0x00#8 }) (fun t => (t.ax, t.pc, t.rs)) =
      some (0x0000#16, 0x0102#16, 0xC0#8) := by decide

/-- T44.17: MUL AX, AX. -/
theorem test_step_T44_17_mul_ax_ax :
    after (load [0xC2#8, 0x00#8] { State.reset with ax := 0xFFFF#16, pc := 0x0100#16, rs := 0x00#8 }) (fun t => (t.ax, t.pc, t.rs)) =
      some (0x0001#16, 0x0102#16, 0x40#8) := by decide

/-- T44.18: MUL BX, #15. -/
theorem test_step_T44_18_mul_bx_15 :
    after (load [0xC2#8, 0xF4#8] { State.reset with bx := 0x1111#16, pc := 0x0100#16, rs := 0x00#8 }) (fun t => (t.bx, t.pc, t.rs)) =
      some (0xFFFF#16, 0x0102#16, 0x20#8) := by decide

/-- T44.20: DIV AX, #10. -/
theorem test_step_T44_20_div_ax_10 :
    after (load [0xC3#8, 0xA0#8] { State.reset with ax := 0x0064#16, pc := 0x0100#16, rs := 0x00#8 }) (fun t => (t.ax, t.pc, t.rs)) =
      some (0x000A#16, 0x0102#16, 0x00#8) := by decide

/-- T44.21: DIV AX, BX. -/
theorem test_step_T44_21_div_ax_bx :
    after (load [0xC3#8, 0x01#8] { State.reset with ax := 0xFFFE#16, bx := 0x0002#16, pc := 0x0100#16, rs := 0x40#8 }) (fun t => (t.ax, t.pc, t.rs)) =
      some (0x7FFF#16, 0x0102#16, 0x00#8) := by decide

/-- T44.22: DIV AX, BX. -/
theorem test_step_T44_22_div_ax_bx :
    after (load [0xC3#8, 0x01#8] { State.reset with ax := 0x0003#16, bx := 0x0005#16, pc := 0x0100#16, rs := 0x00#8 }) (fun t => (t.ax, t.pc, t.rs)) =
      some (0x0000#16, 0x0102#16, 0x80#8) := by decide

/-- T44.24: DIV AX, #3. -/
theorem test_step_T44_24_div_ax_3 :
    after (load [0xC3#8, 0x30#8] { State.reset with ax := 0xFFFF#16, pc := 0x0100#16, rs := 0x00#8 }) (fun t => (t.ax, t.pc, t.rs)) =
      some (0x5555#16, 0x0102#16, 0x00#8) := by decide

/-- T45.1: CAL 0x0010. -/
theorem test_step_T45_1_cal_0x0010 :
    after (load [0xD0#8, 0x00#8, 0x10#8] { State.reset with sp := 0x0200#16, pc := 0x0006#16, rs := 0x00#8 }) (fun t => (t.sp, t.pc, t.rs, t.byteAt 0x01FE#16, t.byteAt 0x01FF#16, t.byteAt 0x0200#16, t.byteAt 0x0201#16)) =
      some (0x01FC#16, 0x0010#16, 0x00#8, 0x01#8, 0xFE#8, 0x00#8, 0x09#8) := by decide

/-- T45.3: CAL 0x1234. -/
theorem test_step_T45_3_cal_0x1234 :
    after (load [0xD0#8, 0x12#8, 0x34#8] { State.reset with sp := 0x0001#16, pc := 0x8000#16, rs := 0x00#8 }) (fun t => (t.sp, t.pc, t.rs, t.byteAt 0x0000#16, t.byteAt 0x0001#16, t.byteAt 0x0002#16, t.byteAt 0xFFFF#16)) =
      some (0xFFFD#16, 0x1234#16, 0x00#8, 0xFF#8, 0x80#8, 0x03#8, 0xFF#8) := by decide

/-- T45.4: RCL 0x01FE. -/
theorem test_step_T45_4_rcl_0x01fe :
    after (load [0xD1#8, 0x01#8, 0xFE#8] (State.write16 0x0200#16 0x0009#16 { State.reset with sp := 0x01FC#16, pc := 0x0013#16, rs := 0x00#8 })) (fun t => (t.sp, t.pc, t.rs)) =
      some (0x0200#16, 0x0009#16, 0x00#8) := by decide

/-- T45.5: RCL 0xFFFE. -/
theorem test_step_T45_5_rcl_0xfffe :
    after (load [0xD1#8, 0xFF#8, 0xFE#8] (State.write16 0x0000#16 0x4000#16 { State.reset with sp := 0x0100#16, pc := 0x0013#16, rs := 0x00#8 })) (fun t => (t.sp, t.pc, t.rs)) =
      some (0x0000#16, 0x4000#16, 0x00#8) := by decide

/-- T45.7: CAR BX, #4. -/
theorem test_step_T45_7_car_bx_4 :
    after (load [0xD2#8, 0xD0#8, 0x04#8] { State.reset with bx := 0x0100#16, sp := 0x0200#16, pc := 0x0020#16, rs := 0x00#8 }) (fun t => (t.sp, t.pc, t.rs, t.byteAt 0x01FE#16, t.byteAt 0x01FF#16, t.byteAt 0x0200#16, t.byteAt 0x0201#16)) =
      some (0x01FC#16, 0x0104#16, 0x00#8, 0x01#8, 0xFE#8, 0x00#8, 0x23#8) := by decide

/-- T45.8: CAR SP, #0x010. -/
theorem test_step_T45_8_car_sp_0x010 :
    after (load [0xD2#8, 0x30#8, 0x10#8] { State.reset with sp := 0x0200#16, pc := 0x0020#16, rs := 0x00#8 }) (fun t => (t.sp, t.pc, t.rs, t.byteAt 0x01FE#16, t.byteAt 0x01FF#16, t.byteAt 0x0200#16, t.byteAt 0x0201#16)) =
      some (0x01FC#16, 0x0210#16, 0x00#8, 0x01#8, 0xFE#8, 0x00#8, 0x23#8) := by decide

/-- T45.10: RCR CX, #0. -/
theorem test_step_T45_10_rcr_cx_0 :
    after (load [0xD3#8, 0x20#8, 0x00#8] (State.write16 0x0200#16 0x0009#16 { State.reset with cx := 0x01FE#16, sp := 0x01FE#16, pc := 0x0013#16, rs := 0x00#8 })) (fun t => (t.sp, t.pc, t.rs)) =
      some (0x0200#16, 0x0009#16, 0x00#8) := by decide

/-- T45.11: RCR SP, #2. -/
theorem test_step_T45_11_rcr_sp_2 :
    after (load [0xD3#8, 0x30#8, 0x02#8] (State.write16 0x0200#16 0x0009#16 { State.reset with sp := 0x01FC#16, pc := 0x0013#16, rs := 0x00#8 })) (fun t => (t.sp, t.pc, t.rs)) =
      some (0x0200#16, 0x0009#16, 0x00#8) := by decide

/-- T46.2: IRF #0xA0. -/
theorem test_step_T46_2_irf_0xa0 :
    after (load [0xE3#8, 0xA0#8] { State.reset with pc := 0x0100#16, rs := 0x80#8, rf := 0x40#8, ie := false }) (fun t => (t.pc, t.rs, t.rf, t.ie)) =
      some (0x0102#16, 0x00#8, 0x40#8, false) := by decide

/-- T46.3: IRF #0xFF. -/
theorem test_step_T46_3_irf_0xff :
    after (load [0xE3#8, 0xFF#8] { State.reset with pc := 0x0100#16, rs := 0x60#8, rf := 0x20#8, ie := false }) (fun t => (t.pc, t.rs, t.rf, t.ie)) =
      some (0x0102#16, 0xE0#8, 0x20#8, false) := by decide

/-- T46.6: ROL CX, #4. -/
theorem test_step_T46_6_rol_cx_4 :
    after (load [0xE4#8, 0x48#8] { State.reset with cx := 0x1234#16, pc := 0x0100#16, rs := 0x00#8 }) (fun t => (t.cx, t.pc, t.rs)) =
      some (0x2341#16, 0x0102#16, 0x40#8) := by decide

/-- T46.7: ROL AX, #1. -/
theorem test_step_T46_7_rol_ax_1 :
    after (load [0xE4#8, 0x10#8] { State.reset with ax := 0x8000#16, pc := 0x0100#16, rs := 0x00#8 }) (fun t => (t.ax, t.pc, t.rs)) =
      some (0x0001#16, 0x0102#16, 0x40#8) := by decide

/-- T46.9: ROL AX, BX. -/
theorem test_step_T46_9_rol_ax_bx :
    after (load [0xE4#8, 0x01#8] { State.reset with ax := 0x1234#16, bx := 0x0010#16, pc := 0x0100#16, rs := 0x40#8 }) (fun t => (t.pc, t.rs)) =
      some (0x0102#16, 0x40#8) := by decide

/-- T46.10: ROL BX, BX. -/
theorem test_step_T46_10_rol_bx_bx :
    after (load [0xE4#8, 0x05#8] { State.reset with bx := 0x0003#16, pc := 0x0100#16, rs := 0x00#8 }) (fun t => (t.bx, t.pc, t.rs)) =
      some (0x0018#16, 0x0102#16, 0x00#8) := by decide

/-- T46.11: ROR AX, BX. -/
theorem test_step_T46_11_ror_ax_bx :
    after (load [0xE5#8, 0x01#8] { State.reset with ax := 0x0001#16, bx := 0x0001#16, pc := 0x0100#16, rs := 0x00#8 }) (fun t => (t.ax, t.pc, t.rs)) =
      some (0x8000#16, 0x0102#16, 0x60#8) := by decide

/-- T46.12: ROR CX, #4. -/
theorem test_step_T46_12_ror_cx_4 :
    after (load [0xE5#8, 0x48#8] { State.reset with cx := 0x1234#16, pc := 0x0100#16, rs := 0x00#8 }) (fun t => (t.cx, t.pc, t.rs)) =
      some (0x4123#16, 0x0102#16, 0x00#8) := by decide

/-- T46.13: ROR AX, #15. -/
theorem test_step_T46_13_ror_ax_15 :
    after (load [0xE5#8, 0xF0#8] { State.reset with ax := 0x4000#16, pc := 0x0100#16, rs := 0x00#8 }) (fun t => (t.ax, t.pc, t.rs)) =
      some (0x8000#16, 0x0102#16, 0x60#8) := by decide

/-- T46.14: SHL AX, #1. -/
theorem test_step_T46_14_shl_ax_1 :
    after (load [0xE6#8, 0x10#8] { State.reset with ax := 0x8001#16, pc := 0x0100#16, rs := 0x00#8 }) (fun t => (t.ax, t.pc, t.rs)) =
      some (0x0002#16, 0x0102#16, 0x40#8) := by decide

/-- T46.15: SHL AX, #15. -/
theorem test_step_T46_15_shl_ax_15 :
    after (load [0xE6#8, 0xF0#8] { State.reset with ax := 0x0003#16, pc := 0x0100#16, rs := 0x00#8 }) (fun t => (t.ax, t.pc, t.rs)) =
      some (0x8000#16, 0x0102#16, 0x60#8) := by decide

/-- T46.18: SHR BX, #4. -/
theorem test_step_T46_18_shr_bx_4 :
    after (load [0xE7#8, 0x44#8] { State.reset with bx := 0x1234#16, pc := 0x0100#16, rs := 0x00#8 }) (fun t => (t.bx, t.pc, t.rs)) =
      some (0x0123#16, 0x0102#16, 0x00#8) := by decide

/-- T46.20: SHR AX, CX. -/
theorem test_step_T46_20_shr_ax_cx :
    after (load [0xE7#8, 0x02#8] { State.reset with ax := 0x8001#16, cx := 0x0011#16, pc := 0x0100#16, rs := 0x00#8 }) (fun t => (t.ax, t.pc, t.rs)) =
      some (0x4000#16, 0x0102#16, 0x40#8) := by decide

/-- T46.21: SHR AX, #1. -/
theorem test_step_T46_21_shr_ax_1 :
    after (load [0xE7#8, 0x10#8] { State.reset with ax := 0x0001#16, pc := 0x0100#16, rs := 0x00#8 }) (fun t => (t.ax, t.pc, t.rs)) =
      some (0x0000#16, 0x0102#16, 0xC0#8) := by decide

/-- T47.1: CLI #0x40. -/
theorem test_step_T47_1_cli_0x40 :
    after (load [0xE8#8, 0x40#8] { State.reset with pc := 0x0100#16, rs := 0xE0#8 }) (fun t => (t.pc, t.rs)) =
      some (0x0102#16, 0xA0#8) := by decide

/-- T47.4: CLI #0x1F. -/
theorem test_step_T47_4_cli_0x1f :
    after (load [0xE8#8, 0x1F#8] { State.reset with pc := 0x0100#16, rs := 0xE0#8 }) (fun t => (t.pc, t.rs)) =
      some (0x0102#16, 0xE0#8) := by decide

/-- T47.7: JMI -16. -/
theorem test_step_T47_7_jmi_minus16 :
    after (load [0xE9#8, 0xF0#8] { State.reset with pc := 0x0100#16, rs := 0x00#8 }) (fun t => (t.pc, t.rs)) =
      some (0x00F2#16, 0x00#8) := by decide

/-- T47.11: JMI -128. -/
theorem test_step_T47_11_jmi_minus128 :
    after (load [0xE9#8, 0x80#8] { State.reset with pc := 0x0010#16, rs := 0x00#8 }) (fun t => (t.pc, t.rs)) =
      some (0xFF92#16, 0x00#8) := by decide

/-- T47.12: JZI +4. -/
theorem test_step_T47_12_jzi_4 :
    after (load [0xEA#8, 0x04#8] { State.reset with pc := 0x0010#16, rs := 0x80#8 }) (fun t => (t.pc, t.rs)) =
      some (0x0016#16, 0x80#8) := by decide

/-- T47.13: JZI +4. -/
theorem test_step_T47_13_jzi_4 :
    after (load [0xEA#8, 0x04#8] { State.reset with pc := 0x0010#16, rs := 0x60#8 }) (fun t => (t.pc, t.rs)) =
      some (0x0012#16, 0x60#8) := by decide

/-- T47.14: JNI -5. -/
theorem test_step_T47_14_jni_minus5 :
    after (load [0xEB#8, 0xFB#8] { State.reset with pc := 0x0009#16, rs := 0x00#8 }) (fun t => (t.pc, t.rs)) =
      some (0x0006#16, 0x00#8) := by decide

/-- T47.15: JNI -5. -/
theorem test_step_T47_15_jni_minus5 :
    after (load [0xEB#8, 0xFB#8] { State.reset with pc := 0x0009#16, rs := 0x80#8 }) (fun t => (t.pc, t.rs)) =
      some (0x000B#16, 0x80#8) := by decide

/-- T47.16: JLI +127. -/
theorem test_step_T47_16_jli_127 :
    after (load [0xEC#8, 0x7F#8] { State.reset with pc := 0x0010#16, rs := 0x20#8 }) (fun t => (t.pc, t.rs)) =
      some (0x0091#16, 0x20#8) := by decide

/-- T47.17: JLI +127. -/
theorem test_step_T47_17_jli_127 :
    after (load [0xEC#8, 0x7F#8] { State.reset with pc := 0x0010#16, rs := 0xC0#8 }) (fun t => (t.pc, t.rs)) =
      some (0x0012#16, 0xC0#8) := by decide

/-- T47.18: JGI -128. -/
theorem test_step_T47_18_jgi_minus128 :
    after (load [0xED#8, 0x80#8] { State.reset with pc := 0x0010#16, rs := 0x00#8 }) (fun t => (t.pc, t.rs)) =
      some (0xFF92#16, 0x00#8) := by decide

/-- T47.19: JGI -128. -/
theorem test_step_T47_19_jgi_minus128 :
    after (load [0xED#8, 0x80#8] { State.reset with pc := 0x0010#16, rs := 0x20#8 }) (fun t => (t.pc, t.rs)) =
      some (0x0012#16, 0x20#8) := by decide

/-- T47.20: JOI +2. -/
theorem test_step_T47_20_joi_2 :
    after (load [0xEE#8, 0x02#8] { State.reset with pc := 0x0010#16, rs := 0x40#8 }) (fun t => (t.pc, t.rs)) =
      some (0x0014#16, 0x40#8) := by decide

/-- T47.21: JOI +2. -/
theorem test_step_T47_21_joi_2 :
    after (load [0xEE#8, 0x02#8] { State.reset with pc := 0x0010#16, rs := 0xA0#8 }) (fun t => (t.pc, t.rs)) =
      some (0x0012#16, 0xA0#8) := by decide

/-- T47.22: JUI +2. -/
theorem test_step_T47_22_jui_2 :
    after (load [0xEF#8, 0x02#8] { State.reset with pc := 0x0010#16, rs := 0x00#8 }) (fun t => (t.pc, t.rs)) =
      some (0x0014#16, 0x00#8) := by decide

/-- T47.23: JUI +2. -/
theorem test_step_T47_23_jui_2 :
    after (load [0xEF#8, 0x02#8] { State.reset with pc := 0x0010#16, rs := 0x40#8 }) (fun t => (t.pc, t.rs)) =
      some (0x0012#16, 0x40#8) := by decide

/-- T48.1: LDI AX, [BX + #2]. -/
theorem test_step_T48_1_ldi_ax_bx_2 :
    after (load [0xF0#8, 0x21#8] (State.write16 0x0102#16 0xCAFE#16 { State.reset with bx := 0x0100#16, pc := 0x0100#16, rs := 0x00#8 })) (fun t => (t.ax, t.pc, t.rs)) =
      some (0xCAFE#16, 0x0102#16, 0x00#8) := by decide

/-- T48.3: LDI BX, [BX + #15]. -/
theorem test_step_T48_3_ldi_bx_bx_15 :
    after (load [0xF0#8, 0xF5#8] (State.write16 0x0007#16 0x7788#16 { State.reset with bx := 0xFFF8#16, pc := 0x0100#16, rs := 0x00#8 })) (fun t => (t.bx, t.pc, t.rs)) =
      some (0x7788#16, 0x0102#16, 0x00#8) := by decide

/-- T48.5: STI [BX + #2], CX. -/
theorem test_step_T48_5_sti_bx_2_cx :
    after (load [0xF1#8, 0x26#8] { State.reset with bx := 0x0100#16, cx := 0x1234#16, pc := 0x0100#16, rs := 0x00#8 }) (fun t => (t.pc, t.rs, t.byteAt 0x0102#16, t.byteAt 0x0103#16)) =
      some (0x0102#16, 0x00#8, 0x12#8, 0x34#8) := by decide

/-- T48.6: STI [SP + #15], AX. -/
theorem test_step_T48_6_sti_sp_15_ax :
    after (load [0xF1#8, 0xFC#8] { State.reset with ax := 0xA55A#16, sp := 0xFFF0#16, pc := 0x0100#16, rs := 0x00#8 }) (fun t => (t.pc, t.rs, t.byteAt 0x0000#16, t.byteAt 0xFFFF#16)) =
      some (0x0102#16, 0x00#8, 0x5A#8, 0xA5#8) := by decide

/-- T48.8: LRI AX, [BX + CX + #1]. -/
theorem test_step_T48_8_lri_ax_bx_cx_1 :
    after (load [0xF2#8, 0x49#8] (State.write16 0x0111#16 0xABCD#16 { State.reset with bx := 0x0100#16, cx := 0x0010#16, pc := 0x0100#16, rs := 0x00#8 })) (fun t => (t.ax, t.pc, t.rs)) =
      some (0xABCD#16, 0x0102#16, 0x00#8) := by decide

/-- T48.10: LRI CX, [BX + SP + #0]. -/
theorem test_step_T48_10_lri_cx_bx_sp_0 :
    after (load [0xF2#8, 0x2D#8] (State.write16 0x0002#16 0x1357#16 { State.reset with bx := 0xFFFF#16, sp := 0x0003#16, pc := 0x0100#16, rs := 0x00#8 })) (fun t => (t.cx, t.pc, t.rs)) =
      some (0x1357#16, 0x0102#16, 0x00#8) := by decide

/-- T48.11: SRI [BX + CX + #2], AX. -/
theorem test_step_T48_11_sri_bx_cx_2_ax :
    after (load [0xF3#8, 0xA4#8] { State.reset with ax := 0xBEEF#16, bx := 0x0100#16, cx := 0x0010#16, pc := 0x0100#16, rs := 0x00#8 }) (fun t => (t.pc, t.rs, t.byteAt 0x0112#16, t.byteAt 0x0113#16)) =
      some (0x0102#16, 0x00#8, 0xBE#8, 0xEF#8) := by decide

/-- T48.12: SRI [AX + AX + #0], AX. -/
theorem test_step_T48_12_sri_ax_ax_0_ax :
    after (load [0xF3#8, 0x00#8] { State.reset with ax := 0x0180#16, pc := 0x0100#16, rs := 0x00#8 }) (fun t => (t.pc, t.rs, t.byteAt 0x0300#16, t.byteAt 0x0301#16)) =
      some (0x0102#16, 0x00#8, 0x01#8, 0x80#8) := by decide

/-- T49.1: MVI BX, #0x1234. -/
theorem test_step_T49_1_mvi_bx_0x1234 :
    after (load [0xF5#8, 0x12#8, 0x34#8] { State.reset with pc := 0x0100#16, rs := 0xE0#8 }) (fun t => (t.bx, t.pc, t.rs)) =
      some (0x1234#16, 0x0103#16, 0xE0#8) := by decide

/-- T49.3: MVI AX, #0x0000. -/
theorem test_step_T49_3_mvi_ax_0x0000 :
    after (load [0xF4#8, 0x00#8, 0x00#8] { State.reset with pc := 0x0100#16, rs := 0x00#8 }) (fun t => (t.ax, t.pc, t.rs)) =
      some (0x0000#16, 0x0103#16, 0x00#8) := by decide

/-- T49.5: INC AX. -/
theorem test_step_T49_5_inc_ax :
    after (load [0xF8#8] { State.reset with ax := 0xFFFF#16, pc := 0x0100#16, rs := 0x00#8 }) (fun t => (t.ax, t.pc, t.rs)) =
      some (0x0000#16, 0x0101#16, 0xC0#8) := by decide

/-- T49.6: INC BX. -/
theorem test_step_T49_6_inc_bx :
    after (load [0xF9#8] { State.reset with bx := 0x7FFF#16, pc := 0x0100#16, rs := 0x00#8 }) (fun t => (t.bx, t.pc, t.rs)) =
      some (0x8000#16, 0x0101#16, 0x20#8) := by decide

/-- T49.8: DEC BX. -/
theorem test_step_T49_8_dec_bx :
    after (load [0xFD#8] { State.reset with bx := 0x0001#16, pc := 0x0100#16, rs := 0x00#8 }) (fun t => (t.bx, t.pc, t.rs)) =
      some (0x0000#16, 0x0101#16, 0x80#8) := by decide

/-- T49.9: DEC AX. -/
theorem test_step_T49_9_dec_ax :
    after (load [0xFC#8] { State.reset with ax := 0x0000#16, pc := 0x0100#16, rs := 0x00#8 }) (fun t => (t.ax, t.pc, t.rs)) =
      some (0xFFFF#16, 0x0101#16, 0x60#8) := by decide

/-- By hand from R224: `SHL AX, BX` (E6 01) with AX = 0x8001, BX = 0x0001. -/
theorem test_step_shl_register_form :
    after (load [0xE6#8, 0x01#8] { State.reset with ax := 0x8001#16, bx := 0x0001#16 })
      (fun t => (t.ax, t.pc, t.rs)) = some (0x0002#16, 0x0002#16, 0x40#8) := by decide

/-- T40.2: INT with IE = 0; PC is at the vector, RF is untouched. -/
theorem test_step_int :
    after (load [0x01#8] { State.reset with
        ax := 0x0005#16, bx := 0x0006#16, cx := 0x0007#16, sp := 0x0200#16, pc := 0x0100#16, rs := 0xA0#8, rf := 0x20#8 })
      (fun t => (t.rs, t.rf, t.ie, t.intState)) =
      some (0xA0#8, 0x20#8, false, ⟨5#16, 6#16, 7#16, 0x0200#16, 0x0101#16, 0xA0#8, 0x20#8, 0#8, false⟩) := by decide

theorem test_step_int_goes_to_the_vector :
    after (load [0x01#8] { State.reset with pc := 0x0100#16 }) (fun t => t.pc) = some Config.intVector := rfl

/-- T40.13: RST; memory and the schedule are kept. -/
theorem test_step_rst :
    after (load [0x04#8] { State.reset with ax := 1#16, pc := 0x0123#16, rs := 0xE0#8, rf := 0x40#8, ie := false })
      (fun t => (t.pc, t.ie, t.halted, t.byteAt 0x0123#16)) = some (0x0000#16, false, false, 0x04#8) := by decide

/-- T44.25: DIV by zero leaves `DIV0(0x0007)` and goes on. -/
theorem test_step_div_by_zero :
    after (load [0xC3#8, 0x01#8] { State.reset with ax := 0x0007#16, pc := 0x0100#16 }) (fun t => (t.ax, t.pc)) =
      some (Config.div0Result 0x0007#16, 0x0102#16) := rfl

/-- T41.9: POP of bytes that hold no value goes on with a free value. -/
theorem test_step_pop_of_no_value :
    after (load [0x14#8] { State.reset with sp := 0x00FE#16, pc := 0x0010#16 }) (fun t => (t.sp, t.pc, t.ax)) =
      some (0x0100#16, 0x0011#16, Config.initialMemory 0x0100#16 ++ Config.initialMemory 0x0101#16) := rfl

/-! ## Reserved and unlisted bytes (T30.1 to T30.18) -/

theorem test_reserved_bytes_fault :
    ∀ b ∈ [0x0A#8, 0x0F#8, 0x18#8, 0x1E#8, 0x40#8, 0x4F#8, 0x88#8, 0x8F#8],
      faultOf (load [b] { State.reset with pc := 0x0100#16 }) = some .reservedOpcode := by decide

theorem test_unlisted_bytes_fault :
    ∀ b ∈ [0x06#8, 0x07#8, 0x20#8, 0x23#8, 0xC4#8, 0xCF#8, 0xD4#8, 0xDF#8, 0xE0#8, 0xE2#8],
      faultOf (load [b] { State.reset with pc := 0x0100#16 }) = some .unlistedOpcode := by decide

/-! ## Boundaries (T60.1 to T60.7) -/

/-- The start state of T60.1: a NOP at 0x0100. -/
def boundary (ie halted : Bool) (rf : Byte) (events : List Byte) : State :=
  load [0x00#8] { State.reset with
    ax := 1#16, bx := 2#16, cx := 3#16, sp := 0x0200#16, pc := 0x0100#16, rs := 0xA0#8,
    rf := rf, ie := ie, halted := halted, events := events }

/-- T60.1: the interrupt is taken before the fetch. -/
theorem test_T60_1_interrupt_taken :
    after (boundary true false 0x40#8 []) (fun t => (t.intState, t.ie, t.rf, t.ax, t.rs)) =
      some (⟨1#16, 2#16, 3#16, 0x0200#16, 0x0100#16, 0xA0#8, 0x40#8, 0#8, true⟩, false, 0x40#8, 1#16, 0xA0#8) := by
  decide

/-- T60.2: no interrupt with IE = 0. -/
theorem test_T60_2_no_interrupt_when_disabled :
    after (boundary false false 0xE0#8 []) (fun t => (t.pc, t.rf)) = some (0x0101#16, 0xE0#8) := by decide

/-- T60.3: two flags raised together are one entry. -/
theorem test_T60_3_event_at_the_boundary :
    after (boundary true false 0x00#8 [0x60#8]) (fun t => (t.intState.pc, t.intState.rf, t.intState.ie, t.rf)) =
      some (0x0100#16, 0x60#8, true, 0x60#8) := by decide

/-- T60.5: no step is enabled. -/
theorem test_T60_5_asleep : faultOf (boundary false true 0x00#8 []) = some .asleep := by decide

/-- T60.6: a flag wakes the core with IE = 0 and the NOP runs. -/
theorem test_T60_6_wakes_without_interrupt :
    after (boundary false true 0x00#8 [0x20#8]) (fun t => (t.halted, t.rf, t.pc)) = some (false, 0x20#8, 0x0101#16) := by
  decide

/-- T60.7: a flag wakes the core and the interrupt is taken. -/
theorem test_T60_7_wakes_with_interrupt :
    after (boundary true true 0x00#8 [0x80#8]) (fun t => (t.halted, t.intState.pc, t.intState.rf, t.ie)) =
      some (false, 0x0100#16, 0x80#8, false) := by decide

/-- A silent boundary of a sleeping core changes only the schedule. -/
theorem test_silent_boundary_asleep :
    step (boundary false true 0x00#8 [0x1F#8, 0x80#8]) = .next (boundary false true 0x00#8 [0x80#8]) := rfl

/-! ## Other platforms: RESET_PC and MEM_MAP (R5, R42, R68; log 7, log 17) -/

/-- A machine at `pc` with a device at 0x0100 to 0x01FF and a ROM at 0x0200 to 0x02FF. -/
def mapped (pc : Word) : State :=
  { State.resetOn ⟨0x4000#16, [⟨0x0100#16, 0x01FF#16, .device⟩, ⟨0x0200#16, 0x02FF#16, .rom⟩]⟩ with pc := pc }

/-- The refusal one step ends in. -/
def refusalOf (s : State) : Option Refusal :=
  match step s with
  | .refused r => some r
  | _ => none

/-- Reset and RST start at the platform's RESET_PC. -/
theorem test_reset_pc_is_the_platforms :
    (State.resetOn ⟨0x4000#16, []⟩).pc = 0x4000#16 ∧
    after (load [0x04#8] (mapped 0x0010#16)) (fun t => (t.pc, t.platform)) =
      some (0x4000#16, (mapped 0#16).platform) := by decide

/-- LOD with its second byte a device's, STO with its first byte a ROM's, CAL with its second push into the device, and
a fetch whose second byte is a device's, are refused by name. -/
theorem test_device_and_rom_refusals :
    refusalOf (load [0x60#8] { mapped 0x0010#16 with ax := 0x00FF#16 }) = some (.deviceAccess 0x0100#16) ∧
    refusalOf (load [0x70#8] { mapped 0x0010#16 with ax := 0x02FF#16 }) = some (.romWrite 0x02FF#16) ∧
    refusalOf (load [0xD0#8] { mapped 0x0010#16 with sp := 0x0101#16 }) = some (.deviceAccess 0x0101#16) ∧
    refusalOf (load [0xC0#8] (mapped 0x00FF#16)) = some (.deviceAccess 0x0100#16) := by decide

/-- Beside the device all goes on: a one-byte fetch just below it, a load from ROM, a store just below it. -/
theorem test_accesses_beside_the_device_complete :
    after (load [0x00#8] (mapped 0x00FF#16)) (fun t => t.pc) = some 0x0100#16 ∧
    after (load [0x60#8] { (load [0x12#8, 0x34#8] (mapped 0x0200#16)) with pc := 0x0010#16, ax := 0x0200#16 })
      (fun t => t.ax) = some 0x1234#16 ∧
    after (load [0x70#8] { mapped 0x0010#16 with ax := 0x00FE#16 }) (fun t => t.byteAt 0x00FF#16) = some 0xFE#8 := by
  decide

/-! ## The hypotheses of the obligations are met, each clause at boundary values -/

theorem witness_DecodeInvertsEncode : Instr.wf (.addI 1#4 .sp 3#2) = true ∧ Instr.wf (.shrI 15#4 .ax 0#2) = true := by
  decide

theorem witness_EncodeInvertsDecode :
    decode [0xC0#8, 0x10#8, 0x55#8] = .ok (.addI 1#4 .ax 0#2, [0x55#8]) ∧ decode [0x88#8] = .ok (.reserved88 0#3, []) :=
  ⟨rfl, rfl⟩

/-- The first and last byte of every range of R90. -/
theorem witness_FirstByteDecidesLength :
    (∀ b ∈ [0x1F#8, 0xD0#8, 0xD3#8, 0xF4#8, 0xF7#8], (decodeBytes b 0#8 0#8).length = 3) ∧
    (∀ b ∈ [0xC0#8, 0xC3#8, 0xE3#8, 0xF3#8], (decodeBytes b 0#8 0#8).length = 2) ∧
    (∀ b ∈ [0x00#8, 0x24#8, 0xBF#8, 0xF8#8, 0xFF#8],
      reservedByte b.toNat = false ∧ unlistedByte b.toNat = false ∧ (decodeBytes b 0#8 0#8).length = 1) := by
  decide

theorem witness_BytesPastTheLengthAreNotRead :
    (decodeBytes 0xFF#8 0x12#8 0x34#8).length = 1 ∧ (decodeBytes 0xF3#8 0x12#8 0x34#8).length = 2 := by decide

theorem witness_TwoByteFormatsDecode : (1#4 : BitVec 4) ≠ 0#4 ∧ (15#4 : BitVec 4) ≠ 0#4 := by decide

theorem witness_IgnoredBitsHaveNoEffect :
    (∀ b ∈ [0xC0#8, 0xC3#8, 0xE4#8, 0xE7#8], twoFormByte b.toNat = true) ∧
    (0x13#8).toNat / 16 ≠ 0 ∧ (0xFF#8).toNat / 16 ≠ 0 ∧ (0x0F#8).toNat / 16 = 0 ∧
    decodeBytes 0xC0#8 0x13#8 0#8 ≠ decodeBytes 0xC0#8 (0x13#8 &&& 0xFC#8) 0#8 := by
  decide

theorem witness_StepRunsDecodedInstruction :
    let s := boundary false false 0xE0#8 []
    s.atBoundary s ∧ ¬(s.halted = true ∧ s.rf = 0#8) ∧ ¬(s.ie = true ∧ s.rf ≠ 0#8) ∧
    (∃ rest, decode [s.byteAt s.pc, s.byteAt (s.pc + 1#16), s.byteAt (s.pc + 2#16)] = .ok (.nop, rest)) ∧
    ∀ a ∈ s.bytesOf .nop, s.kindAt a ≠ .device :=
  ⟨.inl ⟨rfl, rfl⟩, by decide, by decide, ⟨_, rfl⟩, fun _ _ h => nomatch h⟩

/-- Both clauses of `ExecutesNext`: the bytes of a NOP at the last RAM address before the device, at its first, and at the
last address of the ROM. -/
theorem witness_ExecutesNext :
    (∀ a ∈ (mapped 0x00FF#16).bytesOf .nop, (mapped 0x00FF#16).kindAt a ≠ .device) ∧
    (∃ a ∈ (mapped 0x0100#16).bytesOf .nop, (mapped 0x0100#16).kindAt a = .device) ∧
    (∀ a ∈ (mapped 0x02FF#16).bytesOf .nop, (mapped 0x02FF#16).kindAt a ≠ .device) :=
  ⟨fun _ h => by obtain rfl := List.mem_singleton.1 h; decide, ⟨_, .head _, by decide⟩,
    fun _ h => by obtain rfl := List.mem_singleton.1 h; decide⟩

theorem forall_wordAt {P : Word → Prop} {ea : Word} (h1 : P ea) (h2 : P (ea + 1#16)) : ∀ a ∈ wordAt ea, P a := by
  simpa [wordAt] using ⟨h1, h2⟩

/-- Every premise `Accesses` makes, for words read at the edges of a device and words written at the edges of a ROM. -/
theorem witness_Accesses :
    let s := mapped 0#16
    (∀ a ∈ wordAt 0x00FE#16, s.kindAt a ≠ .device) ∧ (∀ a ∈ wordAt 0x0200#16, s.kindAt a ≠ .device) ∧
    (∀ a ∈ wordAt 0xFFFF#16, s.kindAt a ≠ .device) ∧
    (∃ a ∈ wordAt 0x00FF#16, s.kindAt a = .device) ∧ (∃ a ∈ wordAt 0x01FF#16, s.kindAt a = .device) ∧
    (∀ a ∈ wordAt 0x00FE#16, s.kindAt a = .ram) ∧ (∀ a ∈ wordAt 0x0300#16, s.kindAt a = .ram) ∧
    (∀ a ∈ wordAt 0xFFFF#16, s.kindAt a = .ram) ∧
    (∃ a ∈ wordAt 0x00FF#16, s.kindAt a ≠ .ram) ∧ (∃ a ∈ wordAt 0x02FF#16, s.kindAt a ≠ .ram) ∧
    (∀ a, State.reset.kindAt a = .ram) :=
  ⟨forall_wordAt (by decide) (by decide), forall_wordAt (by decide) (by decide),
    forall_wordAt (by decide) (by decide), ⟨_, .tail _ (.head _), by decide⟩, ⟨_, .head _, by decide⟩,
    forall_wordAt (by decide) (by decide), forall_wordAt (by decide) (by decide),
    forall_wordAt (by decide) (by decide), ⟨_, .tail _ (.head _), by decide⟩, ⟨_, .head _, by decide⟩, fun _ => rfl⟩

/-- Due, with the flag raised at the boundary itself; and not due with IE = 0, with RF = 0. -/
theorem witness_InterruptTakenExactlyWhenEnabledAndPending :
    (boundary true false 0#8 [0x20#8]).atBoundary (boundary true false 0x20#8 []) ∧
    (let u := boundary true false 0x20#8 []
     ¬(u.halted = true ∧ u.rf = 0#8) ∧ u.ie = true ∧ u.rf ≠ 0#8) ∧
    (∀ u ∈ [boundary false false 0xE0#8 [], boundary true false 0#8 []],
      ¬(u.halted = true ∧ u.rf = 0#8) ∧ ¬(u.ie = true ∧ u.rf ≠ 0#8)) :=
  ⟨.inr ⟨0x20#8, [], rfl, rfl⟩, by decide, by decide⟩

/-- The schedule over, and an entry whose bits lie outside 7:5. -/
theorem witness_SleepingCoreHasNoStep :
    (let s := boundary true true 0#8 []
     s.halted = true ∧ s.rf = 0#8 ∧ s.events = []) ∧
    (let s := boundary false true 0#8 [0x1F#8]
     s.halted = true ∧ s.rf = 0#8 ∧ s.events = [0x1F#8] ∧ (0x1F#8 : Byte) &&& 0xE0#8 = 0#8) := by
  decide

theorem witness_RaisedFlagWakesCore :
    ∀ ie ∈ [true, false], ∀ e ∈ [(0x20#8 : Byte), 0xFF#8],
      let s := boundary ie true 0#8 [e, 0x40#8]
      s.halted = true ∧ s.rf = 0#8 ∧ s.events = [e, 0x40#8] ∧ e &&& 0xE0#8 ≠ 0#8 ∧ s.ie = ie := by
  decide

theorem witness_StepKeepsInvariant : ∃ t, (boundary true false 0x40#8 []).Inv ∧ step (boundary true false 0x40#8 []) = .next t :=
  ⟨_, by unfold State.Inv; decide, rfl⟩

/-- A step that goes on, and one for each ground of stopping. -/
theorem witness_StepStopsOnlyOnNamedGrounds :
    (∃ t, step (boundary false false 0#8 []) = .next t) ∧
    step (boundary true true 0#8 []) = .fault .asleep ∧
    step (load [0x40#8] { State.reset with events := [] }) = .fault .reservedOpcode ∧
    step (load [0xE2#8] { State.reset with events := [] }) = .fault .unlistedOpcode ∧
    step (mapped 0x0100#16) = .refused (.deviceAccess 0x0100#16) ∧
    step (load [0x60#8] { mapped 0x0020#16 with ax := 0x00FF#16 }) = .refused (.deviceAccess 0x0100#16) ∧
    step (load [0x70#8] { mapped 0x0020#16 with ax := 0x02FF#16 }) = .refused (.romWrite 0x02FF#16) :=
  ⟨⟨_, rfl⟩, rfl, rfl, rfl, rfl, rfl, rfl⟩

/-- Both ends of every reserved and unlisted range of R107 and R108, and the bytes beside them, which are neither. -/
theorem witness_ReservedAndUnlistedBytesFault :
    (∀ b ∈ [0x0A#8, 0x0F#8, 0x18#8, 0x1E#8, 0x40#8, 0x4F#8, 0x88#8, 0x8F#8], reservedByte b.toNat = true) ∧
    (∀ b ∈ [0x06#8, 0x07#8, 0x20#8, 0x23#8, 0xC4#8, 0xCF#8, 0xD4#8, 0xDF#8, 0xE0#8, 0xE2#8],
      unlistedByte b.toNat = true) ∧
    (∀ b ∈ [0x05#8, 0x08#8, 0x09#8, 0x10#8, 0x17#8, 0x1F#8, 0x24#8, 0x3F#8, 0x50#8, 0x87#8, 0x90#8, 0xC3#8, 0xD0#8,
        0xD3#8, 0xE3#8],
      reservedByte b.toNat = false ∧ unlistedByte b.toNat = false) := by
  decide

theorem witness_EveryListedInstructionCompletes :
    Instr.isListed .nop = true ∧ Instr.isListed (.rcr 0#2 .sp 2#12) = true ∧ Instr.nop ≠ .int ∧ Instr.nop ≠ .rst ∧ Instr.isListed (.divR .ax .ax) = true ∧ Instr.isListed (.dec .sp) = true := by decide

theorem witness_RfClearedByThreeAndReadByIrf :
    ∀ i ∈ [Instr.eni, .hlt, .ret, .dei, .nop, .int], (∃ t, exec i State.reset = .next t) ∧ i ≠ .rst ∧ ∀ m, i ≠ .irf m := by
  intro i hi
  simp only [List.mem_cons, List.not_mem_nil, or_false] at hi
  rcases hi with rfl | rfl | rfl | rfl | rfl | rfl <;> exact ⟨⟨_, rfl⟩, by decide, fun _ h => Instr.noConfusion h⟩

theorem witness_RsKeptWhereTheTableHasDashes :
    (∃ t, exec (.mov .ax .sp) State.reset = .next t) ∧ Instr.writesRs (.mov .ax .sp) = false ∧
    (∃ t, exec (.neg .sp) State.reset = .next t) ∧ (∃ t, exec (.xor .ax .sp) State.reset = .next t) ∧
    (∃ t, exec .cmp State.reset = .next t) ∧ (∃ t, exec (.irf 0xFF#8) State.reset = .next t) :=
  ⟨⟨_, rfl⟩, rfl, ⟨_, rfl⟩, ⟨_, rfl⟩, ⟨_, rfl⟩, ⟨_, rfl⟩⟩

/-- An instruction of each length that does not read PC, a jump, and the two that restart PC. -/
theorem witness_PcWrittenAndReadAsTheTableSays :
    (∀ i ∈ [Instr.hlt, .divR .ax .bx, .mvi .sp 0xFFFF#16, .ret, .rst],
      (∃ t, exec i State.reset = .next t) ∧ i.readsPc = false) ∧
    (∃ t, exec (.jiz .ax) State.reset = .next t) ∧ (∃ t, exec .int State.reset = .next t) ∧
    (let s := boundary true true 0x20#8 []
     s.atBoundary s ∧ s.ie = true ∧ s.rf ≠ 0#8) := by
  refine ⟨?_, ⟨_, rfl⟩, ⟨_, rfl⟩, .inl ⟨rfl, rfl⟩, rfl, by decide⟩
  intro i hi
  simp only [List.mem_cons, List.not_mem_nil, or_false] at hi
  rcases hi with rfl | rfl | rfl | rfl | rfl <;> exact ⟨⟨_, rfl⟩, rfl⟩

theorem witness_OnlyStoringInstructionsChangeMemory :
    (∀ i ∈ [Instr.int, .ret, .rst, .pop .sp, .rcl 0#16],
      (∃ t, exec i State.reset = .next t) ∧ 0xFFFF#16 ∉ i.writes State.reset) ∧
    (∃ t, exec (.cal 0#16) State.reset = .next t) ∧ 2#16 ∉ (Instr.cal 0#16).writes State.reset ∧
    (let s := boundary true false 0#8 [0x80#8]
     let u := boundary true false 0x80#8 []
     s.atBoundary u ∧ u.ie = true ∧ u.rf ≠ 0#8) := by
  refine ⟨?_, ⟨_, rfl⟩, by decide, .inr ⟨0x80#8, [], rfl, rfl⟩, rfl, by decide⟩
  intro i hi
  simp only [List.mem_cons, List.not_mem_nil, or_false] at hi
  rcases hi with rfl | rfl | rfl | rfl | rfl <;> exact ⟨⟨_, rfl⟩, by decide⟩

theorem witness_RegistersOutsideDestinationsKept :
    ∀ i ∈ [Instr.pop .bx, .cal 0#16, .sto .ax .bx], (∃ t, exec i State.reset = .next t) ∧ Reg.cx ∉ i.destinations := by
  intro i hi
  simp only [List.mem_cons, List.not_mem_nil, or_false] at hi
  rcases hi with rfl | rfl | rfl <;> exact ⟨⟨_, rfl⟩, by decide⟩

theorem witness_IeAndHaltedWriters :
    ∀ i ∈ [Instr.eni, .dei, .int, .rst, .ret, .hlt, .nop], ∃ t, exec i State.reset = .next t := by
  intro i hi
  simp only [List.mem_cons, List.not_mem_nil, or_false] at hi
  rcases hi with rfl | rfl | rfl | rfl | rfl | rfl | rfl <;> exact ⟨_, rfl⟩

/-- A step for each of the four cases. -/
theorem witness_IntStateUsedOnlyByEntryRetAndReset :
    ∀ b ∈ [(0x00#8 : Byte), 0x01#8, 0x04#8], ∀ rf ∈ [(0#8 : Byte), 0x80#8],
      let s := load [b] { State.reset with ie := true, rf := rf }
      s.atBoundary s ∧ (∃ t, step s = .next t) ∧ (∃ t, exec .hlt s = .next t) ∧
        Instr.hlt ≠ .int ∧ Instr.hlt ≠ .ret ∧ Instr.hlt ≠ .rst := by
  intro b hb rf hr
  simp only [List.mem_cons, List.not_mem_nil, or_false] at hb hr
  rcases hb with rfl | rfl | rfl <;> rcases hr with rfl | rfl <;>
    exact ⟨.inl ⟨rfl, rfl⟩, ⟨_, rfl⟩, ⟨_, rfl⟩, by decide, by decide, by decide⟩

/-- A schedule that is over, and two whose next entry raises nothing. -/
theorem witness_RetRestoresFromIntState :
    ∀ es ∈ [[], [0#8], [0x1F#8, 0x80#8]],
      let s := boundary true false 0xE0#8 es
      let t := s.returnFromInterrupt
      let u := { t with events := es.tail }
      s.halted = false ∧ t.atBoundary u ∧ u.rf = t.rf := by
  intro es h
  simp only [List.mem_cons, List.not_mem_nil, or_false] at h
  rcases h with rfl | rfl | rfl
  · exact ⟨rfl, .inl ⟨rfl, rfl⟩, rfl⟩
  · exact ⟨rfl, .inr ⟨0#8, [], rfl, rfl⟩, rfl⟩
  · exact ⟨rfl, .inr ⟨0x1F#8, [0x80#8], rfl, rfl⟩, rfl⟩

theorem witness_RetAfterIntRestoresProgram :
    ∃ t u v, exec .int (boundary true false 0#8 []) = .next t ∧ u.intState = t.intState ∧ u ≠ t ∧
      exec .ret u = .next v ∧ (boundary true false 0#8 []).Inv :=
  ⟨(boundary true false 0#8 []).entered 0x0101#16,
    { (boundary true false 0#8 []).entered 0x0101#16 with ax := 0xFFFF#16 }, _, rfl, rfl,
    fun h => absurd (congrArg State.ax h) (by decide), rfl, by unfold State.Inv; decide⟩

theorem witness_EniSetsIeAndDeiClearsIt :
    ∀ es ∈ [[], [0#8], [0x1F#8, 0x80#8]],
      let s := boundary false false 0xE0#8 es
      ∃ t, exec .eni s = .next t ∧ s.halted = false ∧ t.atBoundary { t with events := es.tail } := by
  intro es h
  simp only [List.mem_cons, List.not_mem_nil, or_false] at h
  rcases h with rfl | rfl | rfl
  · exact ⟨_, rfl, rfl, .inl ⟨rfl, rfl⟩⟩
  · exact ⟨_, rfl, rfl, .inr ⟨0#8, [], rfl, rfl⟩⟩
  · exact ⟨_, rfl, rfl, .inr ⟨0x1F#8, [0x80#8], rfl, rfl⟩⟩

theorem witness_PopIncrementsSpThenLoads : Reg.ax ≠ .sp := by decide

theorem witness_PopAfterPusRestores :
    ∃ t u, exec (.pus .sp) State.reset = .next t ∧ exec (.pop .sp) t = .next u := ⟨_, _, rfl, rfl⟩

theorem witness_LoadAfterStoreReadsItBack :
    (∃ t u, exec (.sto .ax .bx) State.reset = .next t ∧ exec (.lod .cx .ax) t = .next u ∧
      State.reset.reg .ax = State.reset.reg .ax) ∧
    (let s := { State.reset with ax := 0xFFFF#16, cx := 0#16 }
     ∃ t u, exec (.sto .ax .bx) s = .next t ∧ exec (.lod .sp .cx) t = .next u ∧ s.reg .cx = s.reg .ax + 1#16) :=
  ⟨⟨_, _, rfl, rfl, rfl⟩, _, _, rfl, rfl, rfl⟩

theorem witness_StoreIsSeenByTheNextFetch :
    ∀ ie ∈ [true, false], ∀ rf ∈ [(0#8 : Byte), 0x20#8], ¬(ie = true ∧ rf ≠ 0#8) →
      let s := { State.reset with ax := 0x0000#16, pc := 0xFFFF#16, ie := ie, rf := rf, events := [0x1F#8] }
      ∃ t u, exec (.sto .ax .bx) s = .next t ∧ s.reg .ax = s.pc + 1#16 ∧ s.halted = false ∧
        t.atBoundary u ∧ ¬(u.ie = true ∧ u.rf ≠ 0#8) := by
  intro ie _ rf _ h
  refine ⟨_, _, rfl, by show 0x0000#16 = 0xFFFF#16 + 1#16; decide, rfl, .inr ⟨0x1F#8, [], rfl, rfl⟩, ?_⟩
  simpa [State.store] using h

/-- The smallest and largest divisors of both forms. -/
theorem witness_DivResultAndFlags :
    State.reg { State.reset with bx := 1#16 } .bx ≠ 0#16 ∧ State.reg { State.reset with bx := 0xFFFF#16 } .bx ≠ 0#16 ∧
    (1#4 : BitVec 4) ≠ 0#4 ∧ (15#4 : BitVec 4) ≠ 0#4 := by decide

theorem witness_DivByZeroLeavesDiv0AndGoesOn : State.reg { State.reset with ax := 7#16 } .bx = 0#16 := rfl

/-- Both calls, and a callee's state in which SP is below its start. -/
theorem witness_ThreeWaysToReturnFromACall :
    (∃ t, exec (.cal 0x1234#16) State.reset = .next t ∧
      (∀ a ∈ [State.reset.sp, State.reset.sp + 1#16, State.reset.sp - 2#16, State.reset.sp - 1#16],
        State.byteAt { t with cx := 5#16 } a = t.byteAt a) ∧
      State.platform { t with cx := 5#16 } = t.platform ∧ t.sp = State.reset.sp - 4#16) ∧
    (∃ t, exec (.car 0#2 .sp 0xFFF#12) State.reset = .next t ∧ t.sp = State.reset.sp - 4#16) :=
  ⟨⟨_, rfl, fun _ _ => rfl, rfl, rfl⟩, _, rfl, rfl⟩


end Sys2Proof.Tests
end

section
/-! SUPPORT. What executing one instruction can do: the six control instructions by their equations, every other
one by `OrdinaryStep` (10_state.md R22, R31 to R38; 20_memory.md R61). -/

namespace Sys2Proof.Machine

/-- The instructions that write IE, HALTED, IS or RF (10_state.md R33, R35, R37, R38). -/
inductive ControlInstr : Instr → Prop where
  | int : ControlInstr .int
  | eni : ControlInstr .eni
  | dei : ControlInstr .dei
  | rst : ControlInstr .rst
  | hlt : ControlInstr .hlt
  | ret : ControlInstr .ret

theorem controlInstr_iff {i : Instr} :
    ControlInstr i ↔ i = .int ∨ i = .eni ∨ i = .dei ∨ i = .rst ∨ i = .hlt ∨ i = .ret := by
  constructor
  · rintro (_ | _ | _ | _ | _ | _) <;> simp
  · rintro (rfl | rfl | rfl | rfl | rfl | rfl) <;> constructor

/-- What an instruction outside `ControlInstr` does to the state: it changes only PC, RS, its destinations and the bytes
it writes; RS is kept, or it is in the table of R31 and RS becomes three flags over zeros; memory stays canonical. -/
structure OrdinaryStep (i : Instr) (s t : State) : Prop where
  frame : s.frame t i.destinations (i.writes s)
  rs : t.rs = s.rs ∨ (i.writesRs = true ∧ ∃ z c g, t.rs = rsByte z c g)
  mem_wf : Memory.wf s.mem = true → Memory.wf t.mem = true

/-! ## One lemma per shape -/

section Shapes

variable {i : Instr} {s : State}

theorem OrdinaryStep.writeArith {d : Reg} {v : Word} {c : Bool} {n : Nat} (hd : i.destinations = [d])
    (hb : i.writes s = []) (hw : i.writesRs = true) : OrdinaryStep i s (s.writeArith d v c n) where
  frame := by
    obtain ⟨-, -, -, hframe⟩ := s.writeArith_spec d v c n
    rwa [hd, hb]
  rs := .inr ⟨hw, _, _, _, rfl⟩
  mem_wf h := by simpa [State.writeArith] using h

theorem OrdinaryStep.writeLogic {d : Reg} {v : Word} {n : Nat} (hd : i.destinations = [d])
    (hb : i.writes s = []) (hw : i.writesRs = true) : OrdinaryStep i s (s.writeLogic d v n) where
  frame := by
    obtain ⟨-, -, -, hframe⟩ := s.writeLogic_spec d v n
    rwa [hd, hb]
  rs := .inr ⟨hw, _, _, _, rfl⟩
  mem_wf h := by simpa [State.writeLogic] using h

/-- DIV, whether the divisor is 0 or not (44_arithmetic.md R194, R196). -/
theorem OrdinaryStep.divide {d : Reg} {a b : Word} (hd : i.destinations = [d]) (hb : i.writes s = [])
    (hw : i.writesRs = true) : OrdinaryStep i s (s.divide d a b) := by
  by_cases h0 : b = 0#16
  · subst h0
    obtain ⟨-, -, -, hframe⟩ := s.divide_zero_spec d a
    exact
      { frame := by rwa [hd, hb]
        rs := .inr ⟨hw, _, _, _, rfl⟩
        mem_wf := fun h => by simpa [State.divide] using h }
  · rw [State.divide, if_neg h0]
    exact .writeArith hd hb hw

/-- CMP, IRF and CLI: a flag write and the advance. -/
theorem OrdinaryStep.setFlags {z c g : Bool} {n : Nat} (hw : i.writesRs = true) :
    OrdinaryStep i s ((s.setFlags z c g).advance n) where
  frame := by apply State.frame_intro <;> simp
  rs := .inr ⟨hw, z, c, g, rfl⟩
  mem_wf h := h

/-- A register write and the advance: MOV, MVI and the loads. -/
theorem OrdinaryStep.setReg {d : Reg} {v : Word} {n : Nat} (hd : i.destinations = [d]) :
    OrdinaryStep i s ((s.setReg d v).advance n) where
  frame := by
    rw [hd]
    apply State.frame_intro <;> simp
    exact fun r hr => State.setReg_reg_ne hr v s
  rs := .inl (by simp)
  mem_wf h := by simpa using h

theorem OrdinaryStep.store {ea : Word} {r : Reg} {n : Nat} (hb : i.writes s = wordAt ea) :
    OrdinaryStep i s (s.store ea r n) where
  frame := by
    obtain ⟨-, -, -, hreg, hbyte, hrest⟩ := s.store_spec ea r n
    rw [hb]
    exact ⟨fun q _ => hreg q List.not_mem_nil, hbyte, hrest⟩
  rs := .inl rfl
  mem_wf h := State.store_mem_wf h ea r n

/-- The jumps, and NOP: only PC changes. -/
theorem OrdinaryStep.jump {p : Word} : OrdinaryStep i s (s.jump p) where
  frame := by apply State.frame_intro <;> simp
  rs := .inl rfl
  mem_wf h := h

theorem OrdinaryStep.jumpRegIf {c : Bool} {r : Reg} : OrdinaryStep i s (s.jumpRegIf c r) := by
  rw [State.jumpRegIf_spec]; exact .jump

theorem OrdinaryStep.jumpImmIf {c : Bool} {off : Byte} : OrdinaryStep i s (s.jumpImmIf c off) := by
  rw [State.jumpImmIf_spec]; exact .jump

theorem OrdinaryStep.push {v : Word} {n : Nat} (hd : i.destinations = [.sp]) (hb : i.writes s = wordAt s.sp) :
    OrdinaryStep i s ((s.push16 v).advance n) where
  frame := by
    obtain ⟨-, -, hreg, hbyte⟩ := s.push16_spec v
    rw [hd, hb]
    exact State.frame_intro (fun r hr => by simpa using hreg r (by simpa using hr))
      (fun a ha => by simpa using hbyte a ha) rfl rfl rfl rfl rfl rfl rfl
  rs := .inl rfl
  mem_wf h := State.push16_mem_wf h v

theorem OrdinaryStep.pop {r : Reg} {v : Word} {n : Nat} (hd : i.destinations = [r, .sp]) :
    OrdinaryStep i s ((s.popSp.setReg r v).advance n) where
  frame := by
    rw [hd]
    apply State.frame_intro <;> simp
    intro q hqr hqsp
    rw [State.setReg_reg_ne hqr, s.popSp_topOfStack.2.2 q hqsp]
  rs := .inl (by simp)
  mem_wf h := by simpa using h

theorem OrdinaryStep.call {target : Word} (hd : i.destinations = [.sp])
    (hb : i.writes s = wordAt s.sp ++ wordAt (s.sp - 2#16)) : OrdinaryStep i s (s.call target) where
  frame := by rw [hd, hb]; exact (s.call_frame target).1
  rs := .inl (s.call_frame target).2
  mem_wf h := State.call_mem_wf h target

theorem OrdinaryStep.returnFrom {addr : Word} (hd : i.destinations = [.sp]) (hb : i.writes s = []) :
    OrdinaryStep i s (s.returnFrom addr) where
  frame := by rw [hd, hb]; exact (s.returnFrom_frame addr).1
  rs := .inl (s.returnFrom_frame addr).2
  mem_wf h := by rwa [(s.returnFrom_spec addr).2.2]

end Shapes

/-! ## Every instruction -/

/-- The one case analysis over the instructions for what they change: each is of a shape above, or control, or stops. -/
theorem exec_ordinaryStep {i : Instr} {s t : State} (hi : ¬ControlInstr i) (h : exec i s = .next t) :
    OrdinaryStep i s t := by
  cases i with
  | int | eni | dei | rst | hlt | ret => exact absurd (by constructor) hi
  | addR | subR | mulR | addI | subI | mulI | inc | dec => cases h; exact .writeArith rfl rfl rfl
  | rolR | rorR | shlR | shrR | rolI | rorI | shlI | shrI => cases h; exact .writeArith rfl rfl rfl
  | divR | divI => cases h; exact .divide rfl rfl rfl
  | neg | not | and | ior | xor => cases h; exact .writeLogic rfl rfl rfl
  | cmp | irf | cli => cases h; exact .setFlags rfl
  | mov | mvi => cases h; exact .setReg rfl
  | lod | ldi | lri => obtain ⟨-, rfl⟩ := nextUnless_eq_next.1 h; exact .setReg rfl
  | sto => obtain ⟨-, rfl⟩ := nextUnless_eq_next.1 h; exact .store rfl
  | sti imm4 rM rL =>
    obtain ⟨-, rfl⟩ := nextUnless_eq_next.1 h
    exact .store (by rw [State.eaImm4, imm4Word_eq]; rfl)
  | sri imm2 rM rMid rL =>
    obtain ⟨-, rfl⟩ := nextUnless_eq_next.1 h
    exact .store (by rw [State.eaImm2, imm2Word_eq]; rfl)
  | nop | ljp => cases h; exact .jump
  | jmp | jiz | jnz | jlt | jge | jof | jnf => cases h; exact .jumpRegIf
  | jmi | jzi | jni | jli | jgi | joi | jui => cases h; exact .jumpImmIf
  | pus => obtain ⟨-, rfl⟩ := nextUnless_eq_next.1 h; exact .push rfl rfl
  | pop => obtain ⟨-, rfl⟩ := nextUnless_eq_next.1 h; exact .pop rfl
  | cal | car => obtain ⟨-, rfl⟩ := nextUnless_eq_next.1 h; exact .call rfl rfl
  | rcl | rcr => obtain ⟨-, rfl⟩ := nextUnless_eq_next.1 h; exact .returnFrom rfl rfl
  | reserved0A | reserved0C | reserved18 | reserved1C | reserved1E | reserved40 | reserved88 => cases h
  | unlisted06 | unlisted20 | unlistedC4 | unlistedC8 | unlistedD4 | unlistedD8 | unlistedE0 | unlistedE2 => cases h

section Fields

variable {i : Instr} {s t : State}

theorem OrdinaryStep.rf_eq (h : OrdinaryStep i s t) : t.rf = s.rf := by
  obtain ⟨-, -, hrf, -⟩ := h.frame
  exact hrf

theorem OrdinaryStep.intState_eq (h : OrdinaryStep i s t) : t.intState = s.intState := by
  obtain ⟨-, -, -, hintState, -⟩ := h.frame
  exact hintState

end Fields

end Sys2Proof.Machine
end

section
/-! SUPPORT. The length of the decoded instruction (30_encoding.md R90). -/

namespace Sys2Proof

theorem twoForm_length {b1 : Byte} {r : Reg → Reg → Instr} {i : BitVec 4 → Reg → BitVec 2 → Instr}
    (hr : ∀ rM rL, (r rM rL).length = 2) (hi : ∀ imm4 d ign, (i imm4 d ign).length = 2) :
    (twoForm b1 r i).length = 2 := by
  unfold twoForm
  split
  · exact hr _ _
  · exact hi _ _ _

theorem decodeControl00_length (b0 : Byte) : (decodeControl00 b0).length = 1 := by
  unfold decodeControl00; split <;> rfl

theorem decodeControl04_length (b0 : Byte) : (decodeControl04 b0).length = 1 := by
  unfold decodeControl04; split <;> rfl

theorem decodeControl08_length (b0 : Byte) : (decodeControl08 b0).length = 1 := by
  unfold decodeControl08; split <;> rfl

theorem decodeArithmetic_length (b0 b1 : Byte) : (decodeArithmetic b0 b1).length = 2 := by
  unfold decodeArithmetic; split <;> exact twoForm_length (fun _ _ => rfl) fun _ _ _ => rfl

theorem decodeSubroutine_length (b0 b1 b2 : Byte) : (decodeSubroutine b0 b1 b2).length = 3 := by
  unfold decodeSubroutine; split <;> rfl

theorem decodeShift_length (b0 b1 : Byte) : (decodeShift b0 b1).length = 2 := by
  unfold decodeShift; split <;> exact twoForm_length (fun _ _ => rfl) fun _ _ _ => rfl

theorem decodeLocalE8_length (b0 b1 : Byte) : (decodeLocalE8 b0 b1).length = 2 := by
  unfold decodeLocalE8; split <;> rfl

theorem decodeLocalEC_length (b0 b1 : Byte) : (decodeLocalEC b0 b1).length = 2 := by
  unfold decodeLocalEC; split <;> rfl

theorem decodeIndexed_length (b0 b1 : Byte) : (decodeIndexed b0 b1).length = 2 := by
  unfold decodeIndexed; split <;> rfl

/-- Of 0x1C - 0x1F only LJP, 0x1F, is longer than one byte. -/
theorem decodeGroup1C_length (b0 b1 b2 : Byte) :
    (decodeGroup1C b0 b1 b2).length = if (field b0 0 2).toNat = 3 then 3 else 1 := by
  unfold decodeGroup1C
  split
  · next h => rw [h]; rfl
  · next h => rw [h]; rfl
  · next h => rw [if_neg h]; rfl

/-- Of 0xE0 - 0xE3 only IRF, 0xE3, is longer than one byte. -/
theorem decodeGroupE0_length (b0 b1 : Byte) :
    (decodeGroupE0 b0 b1).length = if (field b0 0 2).toNat = 3 then 2 else 1 := by
  unfold decodeGroupE0
  split
  · next h => rw [h]; rfl
  · next h => rw [h]; rfl
  · next h => rw [if_neg h]; rfl

theorem field_low_toNat (b : Byte) : (field b 0 2).toNat = b.toNat % 4 := by
  simp [field, BitVec.extractLsb'_toNat]

theorem field_high_toNat (b : Byte) : (field b 2 6).toNat = b.toNat / 4 := by
  have := b.isLt
  simp only [field, BitVec.extractLsb'_toNat, Nat.shiftRight_eq_div_pow]
  omega

/-- The table of R90 by the groups of four first bytes that share an opcode: `g` is bits 7:2, `low` bits 1:0. -/
def groupLength (g low : Nat) : Nat :=
  if g = 0x07 then if low = 3 then 3 else 1
  else if g = 0x30 then 2
  else if g = 0x34 then 3
  else if g = 0x38 then if low = 3 then 2 else 1
  else if 0x39 ≤ g ∧ g ≤ 0x3C then 2
  else if g = 0x3D then 3
  else 1

theorem lengthOf_eq_groupLength (b0 : Byte) :
    lengthOf b0 = groupLength (field b0 2 6).toNat (field b0 0 2).toNat := by
  rw [field_low_toNat, field_high_toNat]
  simp only [lengthOf, groupLength]
  split_ifs <;> omega

/-- The first byte alone decides the length of the decoded instruction (30_encoding.md R90): by bits 7:2 of it, as the
decoder goes. Where these choose a constructor at once its length is a number; the other groups have their lemma. -/
theorem decodeBytes_length (b0 b1 b2 : Byte) : (decodeBytes b0 b1 b2).length = lengthOf b0 := by
  rw [lengthOf_eq_groupLength]
  unfold decodeBytes
  split
  case h_1 h => rw [h]; exact decodeControl00_length b0
  case h_2 h => rw [h]; exact decodeControl04_length b0
  case h_3 h => rw [h]; exact decodeControl08_length b0
  case h_8 h => rw [h]; exact decodeGroup1C_length b0 b1 b2
  case h_49 h => rw [h]; exact decodeArithmetic_length b0 b1
  case h_53 h => rw [h]; exact decodeSubroutine_length b0 b1 b2
  case h_57 h => rw [h]; exact decodeGroupE0_length b0 b1
  case h_58 h => rw [h]; exact decodeShift_length b0 b1
  case h_59 h => rw [h]; exact decodeLocalE8_length b0 b1
  case h_60 h => rw [h]; exact decodeLocalEC_length b0 b1
  case h_61 h => rw [h]; exact decodeIndexed_length b0 b1
  case h_64 =>
    have hlt := (field b0 2 6).isLt
    simp only [imp_false] at *
    have h : (field b0 2 6).toNat = 0x3F := by omega
    rw [h]; rfl
  all_goals next h => rw [h]; rfl

end Sys2Proof
end

section
/-! SUPPORT. The step at a boundary, from the side of `State.atBoundary` (10_state.md R27). -/

namespace Sys2Proof.Machine

theorem State.atBoundary_iff {s u : State} : s.atBoundary u ↔ u = s.environmentActs := by
  unfold State.atBoundary State.environmentActs
  cases h : s.events with
  | nil => simp
  | cons e es => simp [State.raiseFlags]

theorem State.isAsleep_iff {u : State} : u.isAsleep = true ↔ u.halted = true ∧ u.rf = 0#8 := by
  simp [State.isAsleep]

theorem State.interruptDue_iff {u : State} : u.interruptDue = true ↔ u.ie = true ∧ u.rf ≠ 0#8 := by
  simp [State.interruptDue]

/-- The step of a core that sleeps at the boundary (log 9). -/
theorem step_of_asleep {s : State} (h : s.environmentActs.isAsleep = true) :
    step s = if s.events.isEmpty then .fault .asleep else .next s.environmentActs := by
  simp only [step, cycle, h, if_true]

/-- The step of a core that does not sleep at the boundary is the rest of the pass, awake. -/
theorem step_of_awake {s u : State} (hu : s.atBoundary u) (ha : ¬(u.halted = true ∧ u.rf = 0#8)) :
    step s = u.wake.pass := by
  rw [State.atBoundary_iff] at hu
  subst hu
  rw [← State.isAsleep_iff] at ha
  simp only [step, cycle, if_neg ha]

/-- An interrupt that is due is taken (60_exceptions.md R304, R305). -/
theorem step_of_interruptDue {s u : State} (hu : s.atBoundary u) (hie : u.ie = true) (hrf : u.rf ≠ 0#8) :
    step s = .next (u.entered u.pc) := by
  have hdue : u.wake.interruptDue = true := State.interruptDue_iff.2 ⟨hie, hrf⟩
  rw [step_of_awake hu fun h => hrf h.2, State.pass, if_pos hdue]
  rfl

/-- Where none is due, the step fetches and executes. -/
theorem step_of_not_interruptDue {s u : State} (hu : s.atBoundary u) (ha : ¬(u.halted = true ∧ u.rf = 0#8))
    (hdue : ¬(u.ie = true ∧ u.rf ≠ 0#8)) : step s = u.wake.fetchAndExecute := by
  have hnot : ¬u.wake.interruptDue = true := fun h => hdue (State.interruptDue_iff.1 h)
  rw [step_of_awake hu ha, State.pass, if_neg hnot]

/-- `cycle_next_cases` for the state at the boundary. -/
theorem step_next_cases {s u t : State} (hu : s.atBoundary u) (h : step s = .next t) :
    t = u ∨ t = u.entered u.pc ∨ exec u.instrAtPc u.wake = .next t := by
  rw [State.atBoundary_iff] at hu
  subst hu
  rcases cycle_next_cases h with ⟨-, ht⟩ | ⟨-, ht⟩ | ⟨-, -, -, ht⟩
  · exact .inl ht
  · exact .inr (.inl ht)
  · exact .inr (.inr ht)

/-! ## The fetch -/

/-- Where the map lets every byte of the instruction at PC be fetched, it is executed. -/
theorem State.fetchAndExecute_of_fetchable {s : State} (h : ∀ a ∈ s.bytesOf s.instrAtPc, s.kindAt a ≠ .device) :
    s.fetchAndExecute = exec s.instrAtPc s := by
  have hlen : s.instrAtPc.length = lengthOf (s.byteAt s.pc) := decodeBytes_length _ _ _
  have hfetch : s.fetchRefusal = none := by
    refine State.fetchRefusal_eq_none.2 fun k hk => h _ ?_
    exact List.mem_map.2 ⟨k, List.mem_range.2 (hlen ▸ hk), rfl⟩
  rw [State.fetchAndExecute, hfetch]
  rfl

/-- With three bytes at hand the decoder always answers. -/
theorem decode_three_bytes (b0 b1 b2 : Byte) :
    decode [b0, b1, b2] = .ok (decodeBytes b0 b1 b2, [b1, b2].drop (lengthOf b0 - 1)) := by
  have hlen : ¬[b1, b2].length + 1 < lengthOf b0 := by
    rcases lengthOf_cases b0 with h | h | h <;> simp [h]
  rw [decode, if_neg hlen]
  rfl

end Sys2Proof.Machine
end

section
/-! SUPPORT. Noninterference: an instruction that does not read PC, RF or IS does the same to all else when it finds
other values there (10_state.md R26, R33, R35). -/

namespace Sys2Proof.Machine

/-- The same state with other contents of PC, RF and IS. -/
def State.withPcRfIs (p : Word) (f : Byte) (v : IntState) (s : State) : State :=
  { s with pc := p, rf := f, intState := v }

section Shapes

variable (p : Word) (f : Byte) (v : IntState) (s : State)

@[simp] theorem State.withPcRfIs_reg (r : Reg) : (s.withPcRfIs p f v).reg r = s.reg r := by cases r <;> rfl

@[simp] theorem State.withPcRfIs_self : s.withPcRfIs s.pc s.rf s.intState = s := rfl

theorem State.setReg_withPcRfIs (d : Reg) (w : Word) :
    (s.withPcRfIs p f v).setReg d w = (s.setReg d w).withPcRfIs p f v := by cases d <;> rfl

theorem State.advance_setReg_withPcRfIs (d : Reg) (w : Word) (n : Nat) :
    ((s.withPcRfIs p f v).setReg d w).advance n =
      ((s.setReg d w).advance n).withPcRfIs (p + BitVec.ofNat 16 n) f v := by
  rw [State.setReg_withPcRfIs]; rfl

theorem State.writeLogic_withPcRfIs (d : Reg) (w : Word) (n : Nat) :
    (s.withPcRfIs p f v).writeLogic d w n = (s.writeLogic d w n).withPcRfIs (p + BitVec.ofNat 16 n) f v := by
  rw [State.writeLogic, State.setReg_withPcRfIs]; rfl

theorem State.writeArith_withPcRfIs (d : Reg) (w : Word) (c : Bool) (n : Nat) :
    (s.withPcRfIs p f v).writeArith d w c n = (s.writeArith d w c n).withPcRfIs (p + BitVec.ofNat 16 n) f v := by
  rw [State.writeArith, State.setReg_withPcRfIs]; rfl

theorem State.divide_withPcRfIs (d : Reg) (a b : Word) :
    (s.withPcRfIs p f v).divide d a b = (s.divide d a b).withPcRfIs (p + 2#16) f v := by
  unfold State.divide
  split
  · rw [State.setReg_withPcRfIs]; rfl
  · exact State.writeArith_withPcRfIs ..

theorem State.store_withPcRfIs (ea : Word) (r : Reg) (n : Nat) :
    (s.withPcRfIs p f v).store ea r n = (s.store ea r n).withPcRfIs (p + BitVec.ofNat 16 n) f v := by
  rw [State.store, State.withPcRfIs_reg]; rfl

theorem State.advance_push16_withPcRfIs (w : Word) (n : Nat) :
    ((s.withPcRfIs p f v).push16 w).advance n = ((s.push16 w).advance n).withPcRfIs (p + BitVec.ofNat 16 n) f v := rfl

theorem State.jumpRegIf_withPcRfIs (c : Bool) (r : Reg) :
    (s.withPcRfIs p f v).jumpRegIf c r =
      (s.jumpRegIf c r).withPcRfIs (if c then p + 1#16 + s.reg r else p + 1#16) f v := by
  rw [State.jumpRegIf_spec, State.jumpRegIf_spec, State.withPcRfIs_reg]; rfl

theorem State.jumpImmIf_withPcRfIs (c : Bool) (off : Byte) :
    (s.withPcRfIs p f v).jumpImmIf c off =
      (s.jumpImmIf c off).withPcRfIs (if c then p + 2#16 + off8Word off else p + 2#16) f v := by
  rw [State.jumpImmIf_spec, State.jumpImmIf_spec]; rfl

end Shapes

/-- A 16-bit read as a number, high byte first (20_memory.md R62). -/
theorem State.read16_eq_ofNat (s : State) (a : Word) :
    s.read16 a = BitVec.ofNat 16 (256 * (s.byteAt a).toNat + (s.byteAt (a + 1#16)).toNat) := by
  apply BitVec.eq_of_toNat_eq
  have hhigh := (s.byteAt a).isLt
  have hlow := (s.byteAt (a + 1#16)).isLt
  rw [State.read16, BitVec.toNat_append, Nat.shiftLeft_eq, Nat.mul_comm, ← Nat.two_pow_add_eq_or_of_lt hlow,
    BitVec.toNat_ofNat]
  omega

/-- What RCL and RCR pop into PC, in the words of the table of R26. -/
theorem State.returnFrom_pc (s : State) (addr : Word) :
    (s.returnFrom addr).pc =
      BitVec.ofNat 16 (256 * (s.byteAt (addr + 2#16)).toNat + (s.byteAt (addr + 3#16)).toNat) := by
  rw [(s.returnFrom_spec addr).2.1, State.read16_eq_ofNat, BitVec.add_assoc]
  rfl

/-! ## Guarded and unguarded outcomes -/

/-- From one instruction's answer in a state to its answer in the state with other contents of PC, RF and IS. -/
theorem next_withPcRfIs {t t' u : State} {q : Word} {f : Byte} {v : IntState}
    (h : (Host.Outcome.next t : Host.Outcome State Fault Refusal) = .next u) (ht : t' = t.withPcRfIs q f v) :
    (Host.Outcome.next t' : Host.Outcome State Fault Refusal) = .next (u.withPcRfIs q f v) := by
  cases h; rw [ht]

theorem nextUnless_withPcRfIs {r : Option Refusal} {t t' u : State} {q : Word} {f : Byte} {v : IntState}
    (h : nextUnless r t = .next u) (ht : t' = t.withPcRfIs q f v) :
    nextUnless r t' = .next (u.withPcRfIs q f v) := by
  obtain ⟨hr, rfl⟩ := nextUnless_eq_next.1 h
  exact nextUnless_eq_next.2 ⟨hr, ht.symm⟩

/-! ## Every instruction -/

/-- Outside `ControlInstr` an instruction keeps RF and IS, sets PC to the value of the table of R26, and does
the same to all else whatever it finds in PC, RF and IS; but CAL and CAR push PC, and IRF reads RF. -/
theorem exec_withPcRfIs {i : Instr} {s t : State} {p : Word} {f : Byte} {v : IntState}
    (hi : ¬ControlInstr i) (hp : i.readsPc = false ∨ p = s.pc)
    (hf : (∀ m, i ≠ .irf m) ∨ f = s.rf) (h : exec i s = .next t) :
    exec i (s.withPcRfIs p f v) = .next (t.withPcRfIs (i.pcAfter (s.withPcRfIs p f v)) f v) := by
  cases i with
  | int | eni | dei | rst | hlt | ret => exact absurd (by constructor) hi
  | nop | cmp | cli | ljp => exact next_withPcRfIs h rfl
  | irf m =>
    obtain rfl : f = s.rf := hf.resolve_left fun hne => hne m rfl
    exact next_withPcRfIs h rfl
  | mov | mvi => exact next_withPcRfIs h (State.advance_setReg_withPcRfIs ..)
  | addR | subR | mulR | addI | subI | mulI | inc | dec => exact next_withPcRfIs h (State.writeArith_withPcRfIs ..)
  | rolR | rorR | shlR | shrR | rolI | rorI | shlI | shrI => exact next_withPcRfIs h (State.writeArith_withPcRfIs ..)
  | divR | divI => exact next_withPcRfIs h (State.divide_withPcRfIs ..)
  | neg | not | and | ior | xor => exact next_withPcRfIs h (State.writeLogic_withPcRfIs ..)
  | jmp | jiz | jnz | jlt | jge | jof | jnf => exact next_withPcRfIs h (State.jumpRegIf_withPcRfIs ..)
  | jmi | jzi | jni | jli | jgi | joi | jui => exact next_withPcRfIs h (State.jumpImmIf_withPcRfIs ..)
  | lod | ldi | lri => exact nextUnless_withPcRfIs h (State.advance_setReg_withPcRfIs ..)
  | sto | sti | sri => exact nextUnless_withPcRfIs h (State.store_withPcRfIs ..)
  | pus => exact nextUnless_withPcRfIs h (State.advance_push16_withPcRfIs ..)
  | pop => exact nextUnless_withPcRfIs h (State.advance_setReg_withPcRfIs p f v s.popSp ..)
  | cal =>
    obtain rfl : p = s.pc := hp.resolve_left Bool.noConfusion
    exact nextUnless_withPcRfIs h rfl
  | car ign r off12 =>
    obtain rfl : p = s.pc := hp.resolve_left Bool.noConfusion
    have hpc : (Instr.car ign r off12).pcAfter (s.withPcRfIs s.pc f v) = s.eaOff12 r off12 := by
      rw [State.eaOff12, off12Word_eq, Instr.pcAfter, State.withPcRfIs_reg]
    rw [hpc]
    exact nextUnless_withPcRfIs h rfl
  | rcl addr16 =>
    have hpc : (Instr.rcl addr16).pcAfter (s.withPcRfIs p f v) = (s.returnFrom addr16).pc :=
      (s.returnFrom_pc addr16).symm
    rw [hpc]
    exact nextUnless_withPcRfIs h rfl
  | rcr ign r off12 =>
    have hpc : (Instr.rcr ign r off12).pcAfter (s.withPcRfIs p f v) = (s.returnFrom (s.eaOff12 r off12)).pc := by
      rw [State.returnFrom_pc, State.eaOff12, off12Word_eq, Instr.pcAfter, State.withPcRfIs_reg]; rfl
    rw [hpc]
    exact nextUnless_withPcRfIs h rfl
  | reserved0A | reserved0C | reserved18 | reserved1C | reserved1E | reserved40 | reserved88 => cases h
  | unlisted06 | unlisted20 | unlistedC4 | unlistedC8 | unlistedD4 | unlistedD8 | unlistedE0 | unlistedE2 => cases h

end Sys2Proof.Machine
end

section
/-! SUPPORT. One fact per field of the state about every instruction, from `OrdinaryStep` and the equations of the six
control instructions. -/

namespace Sys2Proof.Machine

variable {i : Instr} {s t : State}

/-- IS is written by INT and RST alone (10_state.md R35). -/
theorem exec_intState (hint : i ≠ .int) (hrst : i ≠ .rst) (h : exec i s = .next t) : t.intState = s.intState := by
  by_cases hi : ControlInstr i
  · cases hi with
    | int => exact absurd rfl hint
    | rst => exact absurd rfl hrst
    | eni | dei | hlt | ret => cases h; rfl
  · exact (exec_ordinaryStep hi h).intState_eq

/-- RF is written by ENI, HLT, RET and RST alone (R33). -/
theorem exec_rf (heni : i ≠ .eni) (hhlt : i ≠ .hlt) (hret : i ≠ .ret) (hrst : i ≠ .rst) (h : exec i s = .next t) :
    t.rf = s.rf := by
  by_cases hi : ControlInstr i
  · cases hi with
    | int | dei => cases h; rfl
    | eni | hlt | ret | rst => contradiction
  · exact (exec_ordinaryStep hi h).rf_eq

/-- The new PC of every instruction is that of the table of R26. -/
theorem exec_pc (h : exec i s = .next t) : t.pc = i.pcAfter s := by
  by_cases hi : ControlInstr i
  · cases hi <;> cases h <;> rfl
  · have hself := exec_withPcRfIs (p := s.pc) (f := s.rf) (v := s.intState) hi (.inr rfl) (.inr rfl) h
    rw [State.withPcRfIs_self, h, Host.Outcome.next.injEq] at hself
    exact congrArg State.pc hself

/-- The table of R26 looks at RF for no instruction, and at IS for RET alone. -/
theorem pcAfter_withRfIs (hret : i ≠ .ret) (f : Byte) (v : IntState) :
    i.pcAfter (s.withPcRfIs s.pc f v) = i.pcAfter s := by
  cases i with
  | ret => exact absurd rfl hret
  | _ => rfl

/-- An instruction outside `ControlInstr` and IRF does the same to all else whatever RF is (R33). -/
theorem exec_withRf (hi : ¬ControlInstr i) (hirf : ∀ m, i ≠ .irf m) (h : exec i s = .next t) (f : Byte) :
    exec i { s with rf := f } = .next { t with rf := f } := by
  have hret : i ≠ .ret := fun he => hi (he ▸ .ret)
  have hoverlay := exec_withPcRfIs (f := f) (v := s.intState) hi (.inr rfl) (.inl hirf) h
  have hkept : t.withPcRfIs t.pc f s.intState = { t with rf := f } := by
    rw [← (exec_ordinaryStep hi h).intState_eq]; rfl
  rwa [pcAfter_withRfIs hret, ← exec_pc h, hkept] at hoverlay

/-- An instruction other than INT, RET and RST does the same to all else whatever IS is (R35). -/
theorem exec_withIntState (hint : i ≠ .int) (hret : i ≠ .ret) (hrst : i ≠ .rst) (h : exec i s = .next t)
    (v : IntState) : exec i { s with intState := v } = .next { t with intState := v } := by
  by_cases hi : ControlInstr i
  · cases hi with
    | eni | dei | hlt => cases h; rfl
    | int | ret | rst => contradiction
  · have hoverlay := exec_withPcRfIs (v := v) hi (.inr rfl) (.inr rfl) h
    have hkept : t.withPcRfIs t.pc s.rf v = { t with intState := v } := by
      rw [← (exec_ordinaryStep hi h).rf_eq]; rfl
    rwa [pcAfter_withRfIs hret, ← exec_pc h, hkept] at hoverlay

/-- An instruction that R26 does not name as a reader of PC does the same to all else whatever PC is. -/
theorem exec_withPc (hpc : i.readsPc = false) (h : exec i s = .next t) (p : Word) :
    exec i { s with pc := p } = .next { t with pc := i.pcAfter { s with pc := p } } := by
  by_cases hi : ControlInstr i
  · cases hi with
    | int => exact Bool.noConfusion hpc
    | eni | dei | rst | hlt | ret => cases h; rfl
  · have hoverlay := exec_withPcRfIs (p := p) (v := s.intState) hi (.inl hpc) (.inr rfl) h
    have hkept (q : Word) : t.withPcRfIs q s.rf s.intState = { t with pc := q } := by
      rw [← (exec_ordinaryStep hi h).rf_eq, ← (exec_ordinaryStep hi h).intState_eq]; rfl
    rwa [hkept] at hoverlay

/-- The bitwise family keeps C (R31, decision D13). -/
theorem State.writeLogic_c (s : State) (d : Reg) (v : Word) (n : Nat) :
    (s.writeLogic d v n).rs.getLsbD 6 = s.rs.getLsbD 6 := by
  obtain ⟨-, ⟨-, hc, -⟩, -⟩ := s.writeLogic_spec d v n
  exact hc

/-- Executing an instruction keeps the invariant. -/
theorem exec_inv (hs : s.Inv) (h : exec i s = .next t) : t.Inv := by
  obtain ⟨hrs, hrf, hmem⟩ := hs
  by_cases hi : ControlInstr i
  · cases hi with
    | int | dei => cases h; exact ⟨hrs, hrf, hmem⟩
    | eni | hlt => cases h; exact ⟨hrs, BitVec.zero_and, hmem⟩
    | ret => cases h; exact ⟨rsByte_low .., BitVec.zero_and, hmem⟩
    | rst =>
      cases h
      have hdraw : (Config.freeByte (s.draws + 1) &&& 0xE0#8) &&& 0x1F#8 = 0#8 := by
        simpa using low_zero_or (v := 0#8) rfl
      exact ⟨rsByte_low .., hdraw, hmem⟩
  · have hstep := exec_ordinaryStep hi h
    refine ⟨?_, by rwa [hstep.rf_eq], hstep.mem_wf hmem⟩
    rcases hstep.rs with hkept | ⟨-, z, c, g, hflags⟩
    · rwa [hkept]
    · rw [hflags]; exact rsByte_low z c g

end Sys2Proof.Machine
end

section
/-! The statements of 10_state.md. -/

namespace Sys2Proof.Machine

/-- The environment raises flags in bits 7:5 only (10_state.md R32). -/
theorem State.environmentActs_inv {s : State} (hs : s.Inv) : s.environmentActs.Inv := by
  obtain ⟨hrs, hrf, hmem⟩ := hs
  obtain ⟨e, es, he⟩ := s.environmentActs_spec
  rw [he]
  exact ⟨hrs, low_zero_or hrf, hmem⟩

/-- Settles O14: one case per kind of step; for an instruction by `OrdinaryStep` and the six control instructions. -/
theorem stepKeepsInvariant : Obligations.StepKeepsInvariant := by
  intro s t hs h
  have hu : s.environmentActs.Inv := State.environmentActs_inv hs
  rcases step_next_cases (State.atBoundary_iff.2 rfl) h with rfl | rfl | hexec
  · exact hu
  · exact hu
  · exact exec_inv (s := s.environmentActs.wake) hu hexec

/-- Settles O20: the frame gives who writes RF, `exec_withRf` who reads it; what the control instructions answer does not
contain the old RF. -/
theorem rfClearedByThreeAndReadByIrf : Obligations.RfClearedByThreeAndReadByIrf := by
  intro i s t h
  refine ⟨fun hrst => ⟨?_, fun hclears => ?_⟩, fun hirf hint v => ?_, ?_⟩
  · rintro (rfl | rfl | rfl) <;> cases h <;> rfl
  · simp only [not_or] at hclears
    obtain ⟨heni, hhlt, hret⟩ := hclears
    exact exec_rf heni hhlt hret hrst h
  · by_cases hi : ControlInstr i
    · cases hi with
      | int => exact absurd rfl hint
      | eni | dei | rst | hlt | ret => cases h; exact ⟨_, rfl⟩
    · exact ⟨v, exec_withRf hi hirf h v⟩
  · rintro rfl
    cases h; rfl

/-- Settles O21: `OrdinaryStep` for an instruction outside the table, the flag written back for the other two lines. -/
theorem rsKeptWhereTheTableHasDashes : Obligations.RsKeptWhereTheTableHasDashes := by
  intro i s t h
  refine ⟨fun hw => ?_, fun a b hlogic => ?_, fun m hflag => ?_⟩
  · by_cases hi : ControlInstr i
    · cases hi with
      | int | eni | dei | hlt => cases h; rfl
      | rst | ret => exact Bool.noConfusion hw
    · rcases (exec_ordinaryStep hi h).rs with hkept | ⟨hwrites, -⟩
      · exact hkept
      · rw [hw] at hwrites; exact Bool.noConfusion hwrites
  · rcases hlogic with rfl | rfl | rfl | rfl | rfl <;> cases h <;> exact State.writeLogic_c ..
  · rcases hflag with rfl | rfl <;> cases h <;> exact ⟨rsByte_c .., rsByte_s ..⟩

/-- Settles O22: `exec_pc` and `exec_withPc` for an instruction, `step_of_interruptDue` for the entry. -/
theorem pcWrittenAndReadAsTheTableSays : Obligations.PcWrittenAndReadAsTheTableSays := by
  refine ⟨fun i s t h => ⟨exec_pc h, fun hpc p => exec_withPc hpc h p⟩, fun s u hu hie hrf => ?_, fun _ => rfl⟩
  exact ⟨_, step_of_interruptDue hu hie hrf, rfl, rfl⟩

/-- Settles O24: the register part of the frame. -/
theorem registersOutsideDestinationsKept : Obligations.RegistersOutsideDestinationsKept := by
  intro i s t h r hr
  by_cases hi : ControlInstr i
  · cases hi with
    | rst | ret => exact absurd (by cases r <;> decide) hr
    | int | eni | dei | hlt => cases h; cases r <;> rfl
  · exact (exec_ordinaryStep hi h).frame.1 r hr

/-- Settles O25: the six control instructions by their equations, every other one by the frame. -/
theorem ieAndHaltedWriters : Obligations.IeAndHaltedWriters := by
  intro i s t h
  by_cases hi : ControlInstr i
  · cases hi <;> cases h <;> exact ⟨rfl, rfl⟩
  · obtain ⟨-, -, -, -, hie, hhalted, -⟩ := (exec_ordinaryStep hi h).frame
    simp only [controlInstr_iff, not_or] at hi
    obtain ⟨hint, heni, hdei, hrst, hhlt, hret⟩ := hi
    simp [hie, hhalted, hint, heni, hdei, hrst, hhlt, hret]

/-- Settles O26: by the kind of step, and `exec_withIntState`. -/
theorem intStateUsedOnlyByEntryRetAndReset : Obligations.IntStateUsedOnlyByEntryRetAndReset := by
  refine ⟨fun s u t hu h => ?_, fun i s t h hint hret hrst v => exec_withIntState hint hret hrst h v, fun _ _ => rfl⟩
  have hkept : u.intState = s.intState := by
    obtain ⟨-, rfl⟩ | ⟨e, es, -, rfl⟩ := hu <;> rfl
  rcases step_next_cases hu h with rfl | rfl | hexec
  · exact .inl hkept
  · exact .inr (.inl rfl)
  · by_cases hint : u.instrAtPc = .int
    · rw [hint] at hexec
      cases hexec
      exact .inr (.inr (.inl ⟨hint, rfl⟩))
    · by_cases hrst : u.instrAtPc = .rst
      · exact .inr (.inr (.inr hrst))
      · exact .inl ((exec_intState hint hrst hexec).trans hkept)

/-- Settles O10: the decoder takes as many bytes as the fetch asks the map for (`decodeBytes_length`). -/
theorem stepRunsDecodedInstruction : Obligations.StepRunsDecodedInstruction := by
  intro s u i rest hu hawake hdue hdecode hfetch
  rw [decode_three_bytes] at hdecode
  cases hdecode
  rw [step_of_not_interruptDue hu hawake hdue]
  exact State.fetchAndExecute_of_fetchable (s := u.wake) hfetch

/-- Settles O12: a silent entry leaves RF at 0x00, so the core is asleep at the boundary too. -/
theorem sleepingCoreHasNoStep : Obligations.SleepingCoreHasNoStep := by
  intro s hhalted hrf
  refine ⟨fun hevents => ?_, fun e es hevents hsilent => ?_⟩
  · have hu : s.environmentActs = s := by rw [State.environmentActs, hevents]
    rw [step_of_asleep (by rw [hu]; exact State.isAsleep_iff.2 ⟨hhalted, hrf⟩), hevents]
    rfl
  · have hu : s.environmentActs = { s with events := es } :=
      (State.atBoundary_iff.1 (.inr ⟨e, es, hevents, by rw [hsilent]; simp⟩)).symm
    rw [step_of_asleep (by rw [hu]; exact State.isAsleep_iff.2 ⟨hhalted, hrf⟩), hevents, hu]
    rfl

theorem State.resetOn_inv (p : Platform) : (State.resetOn p).Inv := ⟨BitVec.zero_and, BitVec.zero_and, Memory.wf_nil⟩

/-- Settles O15, of which the default platform is one case. -/
theorem resetStateHasInvariant : Obligations.ResetStateHasInvariant :=
  ⟨State.resetOn_inv Platform.default, State.resetOn_inv⟩

/-- Settles O16: the low bits by `State.resetOn_inv`, the default map by `State.kindAt_default`. -/
theorem resetGivesPcIeHalted : Obligations.ResetGivesPcIeHalted := by
  refine ⟨fun p => ?_, rfl, rfl, State.kindAt_default rfl⟩
  obtain ⟨hrs, hrf, -⟩ := State.resetOn_inv p
  exact ⟨rfl, rfl, rfl, rfl, hrs, hrf⟩

end Sys2Proof.Machine
end

section
/-! SUPPORT. Stores, loads and the fetch: which bytes a store leaves, what a load reads of them, and the step that
fetches as `State.ExecutesNext` (20_memory.md R62, R63, R70, R73; 10_state.md R27). -/

namespace Sys2Proof.Machine

/-! ## Bytes -/

/-- A word is read high byte first (20_memory.md R62). -/
theorem State.read16_high (s : State) (a : Word) : (s.read16 a).extractLsb' 8 8 = s.byteAt a := by
  rw [State.read16]; exact BitVec.extractLsb'_append_eq_left

/-- The byte at each address after a store. -/
theorem State.byteAt_store (s : State) (ea : Word) (r : Reg) (n : Nat) (b : Word) :
    (s.store ea r n).byteAt b =
      if b = ea + 1#16 then (s.reg r).extractLsb' 0 8 else if b = ea then (s.reg r).extractLsb' 8 8
      else s.byteAt b := by
  rw [State.store, State.advance_byteAt, State.byteAt_write16]

theorem exec_sto_eq_next {rM rL : Reg} {s t : State} :
    exec (.sto rM rL) s = .next t ↔ s.write16Refusal (s.reg rM) = none ∧ t = s.store (s.reg rM) rL 1 :=
  nextUnless_eq_next

theorem exec_lod_eq_next {rM rL : Reg} {s t : State} :
    exec (.lod rM rL) s = .next t ↔ s.read16Refusal (s.reg rL) = none ∧ t = s.load rM (s.reg rL) 1 :=
  nextUnless_eq_next

/-! ## The boundary -/

/-- The environment touches RF and its own schedule only, and so neither memory nor the map (60_exceptions.md R302). -/
theorem State.eq_of_atBoundary {s u : State} (h : s.atBoundary u) : u = { s with rf := u.rf, events := u.events } := by
  obtain ⟨-, rfl⟩ | ⟨e, es, -, rfl⟩ := h <;> rfl

/-! ## The fetch -/

/-- Fetching and executing, with the refusal at a device's byte: the counterpart of `State.fetchAndExecute_of_fetchable`. -/
theorem State.fetchAndExecute_executesNext (s : State) : s.ExecutesNext s.fetchAndExecute := by
  refine ⟨State.fetchAndExecute_of_fetchable, fun hdevice => ?_⟩
  have hlen : s.instrAtPc.length = lengthOf (s.byteAt s.pc) := decodeBytes_length _ _ _
  cases hfetch : s.fetchRefusal with
  | none =>
    obtain ⟨a, ha, hkind⟩ := hdevice
    obtain ⟨k, hk, rfl⟩ := List.mem_map.1 ha
    exact absurd hkind (State.fetchRefusal_eq_none.1 hfetch k (hlen ▸ List.mem_range.1 hk))
  | some why =>
    obtain ⟨k, hk, hkind, rfl⟩ := State.fetchRefusal_eq_some hfetch
    have hmem : s.pc + BitVec.ofNat 16 k ∈ s.bytesOf s.instrAtPc :=
      List.mem_map.2 ⟨k, List.mem_range.2 (hlen ▸ hk), rfl⟩
    exact ⟨_, .inl ⟨.inl hmem, hkind, by rw [State.fetchAndExecute, hfetch]⟩⟩

theorem State.wake_of_awake {s : State} (h : s.halted = false) : s.wake = s := by rw [State.wake, ← h]

/-- A core that does not sleep at the boundary, where no interrupt is due, fetches and executes awake (10_state.md R27). -/
theorem step_executesNext {s u : State} (hu : s.atBoundary u) (ha : ¬(u.halted = true ∧ u.rf = 0#8))
    (hdue : ¬(u.ie = true ∧ u.rf ≠ 0#8)) : u.wake.ExecutesNext (step s) := by
  rw [step_of_not_interruptDue hu ha hdue]
  exact u.wake.fetchAndExecute_executesNext

theorem step_executesNext_of_awake {s u : State} (hu : s.atBoundary u) (hawake : u.halted = false)
    (hdue : ¬(u.ie = true ∧ u.rf ≠ 0#8)) : u.ExecutesNext (step s) := by
  have hexec := step_executesNext hu (by simp [hawake]) hdue
  rwa [State.wake_of_awake hawake] at hexec

end Sys2Proof.Machine
end

section
/-! The statements of 20_memory.md. -/

namespace Sys2Proof.Machine

/-- Settles O23: the six control instructions by their equations, every other one by the byte part of its frame, the
entry by `step_of_interruptDue`. -/
theorem onlyStoringInstructionsChangeMemory : Obligations.OnlyStoringInstructionsChangeMemory := by
  refine ⟨fun i s t h a ha => ?_, fun s u hu hie hrf => ?_⟩
  · by_cases hi : ControlInstr i
    · cases hi <;> cases h <;> rfl
    · obtain ⟨-, hbyte, -⟩ := (exec_ordinaryStep hi h).frame
      exact hbyte a ha
  · refine ⟨_, step_of_interruptDue hu hie hrf, fun a => ?_⟩
    rw [State.eq_of_atBoundary hu]; rfl

/-- Settles O43: the load reads the word at `c`, which is the stored one, or starts with its low byte. -/
theorem loadAfterStoreReadsItBack : Obligations.LoadAfterStoreReadsItBack := by
  intro a d b c s t u hsto hlod
  obtain ⟨-, rfl⟩ := exec_sto_eq_next.1 hsto
  obtain ⟨-, rfl⟩ := exec_lod_eq_next.1 hlod
  obtain ⟨hword, -, -, hkept, -⟩ := s.store_spec (s.reg a) d 1
  obtain ⟨hloaded, -⟩ := (s.store (s.reg a) d 1).load_spec b ((s.store (s.reg a) d 1).reg c) 1
  rw [hloaded, hkept c List.not_mem_nil]
  refine ⟨fun hsame => by rw [hsame, hword], fun hnext => ?_⟩
  rw [hnext, State.read16_high, State.byteAt_store, if_pos rfl]

/-- Settles O44: the store puts the two bytes at the PC of `u` and leaves the third, and the step from there is
`step_executesNext_of_awake`. -/
theorem storeIsSeenByTheNextFetch : Obligations.StoreIsSeenByTheNextFetch := by
  intro rM rL s t hsto hnext hawake u hu hdue
  obtain ⟨-, rfl⟩ := exec_sto_eq_next.1 hsto
  have hkept := State.eq_of_atBoundary hu
  have hbyte (b : Word) : u.byteAt b = (s.store (s.reg rM) rL 1).byteAt b := by rw [hkept]; rfl
  have hpc : u.pc = s.pc + 1#16 := by rw [hkept]; rfl
  have hhalted : u.halted = false := by rw [hkept]; exact hawake
  refine ⟨?_, step_executesNext_of_awake hu hhalted hdue⟩
  have hfirst : s.pc + 1#16 ≠ s.pc + 1#16 + 1#16 := (word_succ_ne _).symm
  have hthird : s.pc + 1#16 + 2#16 = s.pc + 3#16 := by bv_omega
  have hbeyond : s.pc + 3#16 ≠ s.pc + 1#16 + 1#16 := by bv_omega
  have hbeyond' : s.pc + 3#16 ≠ s.pc + 1#16 := by bv_omega
  rw [State.instrAtPc, hpc, hthird, hbyte, hbyte, hbyte, hnext]
  simp only [State.byteAt_store, if_pos, if_neg hfirst, if_neg hbeyond, if_neg hbeyond']

end Sys2Proof.Machine
end

section
/-! SUPPORT. The fields of a byte: a byte put together from fields has them, and the fields of a byte put together are
the byte (30_encoding.md R91 to R103). -/

namespace Sys2Proof

@[simp] theorem regOfCode_code (r : Reg) : regOfCode r.code = r := by cases r <;> rfl

@[simp] theorem code_regOfCode (c : BitVec 2) : (regOfCode c).code = c := by revert c; decide

@[simp] theorem code_regField (b : Byte) (lo : Nat) : (regField b lo).code = field b lo 2 := code_regOfCode _

theorem field_toNat (b : Byte) (lo w : Nat) : (field b lo w).toNat = b.toNat / 2 ^ lo % 2 ^ w := by
  simp [field, Nat.shiftRight_eq_div_pow]

@[simp] theorem field_all (b : Byte) : field b 0 8 = b := BitVec.extractLsb'_eq_self

/-- Two neighbouring fields make one. -/
theorem field_append_field {b : Byte} {lo lo' w w' : Nat} (h : lo' = lo + w) :
    field b lo' w' ++ field b lo w = field b lo (w' + w) :=
  BitVec.extractLsb'_append_extractLsb'_eq_extractLsb' h

/-- A pattern of fixed high bits and the bits the pattern leaves open. -/
theorem pattern_append_field {b : Byte} {v w : Nat} {op : BitVec w} (h : (field b v w).toNat = op.toNat) :
    op ++ field b 0 v = field b 0 (w + v) := by
  rw [← BitVec.eq_of_toNat_eq h, field_append_field (Nat.zero_add v).symm]

/-! ## The high bits of a byte, from bits 7:2 -/

theorem field_top4_toNat (b : Byte) : (field b 4 4).toNat = (field b 2 6).toNat / 4 := by
  have := b.isLt
  simp only [field_toNat]
  omega

theorem field_top5_toNat (b : Byte) : (field b 3 5).toNat = (field b 2 6).toNat / 2 := by
  have := b.isLt
  simp only [field_toNat]
  omega

/-! ## The byte from its fields: a pattern with open low bits, and the operand bytes of formats A2I, X4, RO, X2
and M3 -/

theorem pattern6_append_field {b : Byte} {op : BitVec 6} (h : (field b 2 6).toNat = op.toNat) :
    op ++ field b 0 2 = b :=
  (pattern_append_field h).trans (field_all b)

theorem pattern5_append_field {b : Byte} {op : BitVec 5} (h : (field b 2 6).toNat / 2 = op.toNat) :
    op ++ field b 0 3 = b :=
  (pattern_append_field ((field_top5_toNat b).trans h)).trans (field_all b)

theorem pattern4_append_field {b : Byte} {op : BitVec 4} (h : (field b 2 6).toNat / 4 = op.toNat) :
    op ++ field b 0 4 = b :=
  (pattern_append_field ((field_top4_toNat b).trans h)).trans (field_all b)

theorem fields_422 (b : Byte) : field b 4 4 ++ field b 2 2 ++ field b 0 2 = b := by
  rw [field_append_field (show 4 = 2 + 2 from rfl)]
  exact (field_append_field rfl).trans (field_all b)

theorem fields_224 (b : Byte) : field b 6 2 ++ field b 4 2 ++ field b 0 4 = b := by
  rw [field_append_field (show 6 = 4 + 2 from rfl)]
  exact (field_append_field rfl).trans (field_all b)

theorem fields_2222 (b : Byte) : field b 6 2 ++ field b 4 2 ++ field b 2 2 ++ field b 0 2 = b := by
  rw [field_append_field (show 6 = 4 + 2 from rfl)]
  exact fields_422 b

theorem fields_1115 (b : Byte) :
    BitVec.ofBool (b.getLsbD 7) ++ BitVec.ofBool (b.getLsbD 6) ++ BitVec.ofBool (b.getLsbD 5) ++ field b 0 5 = b := by
  revert b; decide

/-- The four first bytes that share bits 7:2. -/
theorem byte_cases_of_group {b : Byte} {g : Nat} (h : (field b 2 6).toNat = g) :
    b = BitVec.ofNat 8 (4 * g) ∨ b = BitVec.ofNat 8 (4 * g + 1) ∨ b = BitVec.ofNat 8 (4 * g + 2) ∨
      b = BitVec.ofNat 8 (4 * g + 3) := by
  have := b.isLt
  rw [field_high_toNat] at h
  simp only [← BitVec.toNat_inj, BitVec.toNat_ofNat]
  omega

/-! ## The fields of a byte of format A2R, A2I or X4 -/

section Fields422

variable (x : BitVec 4) (y z : BitVec 2)

@[simp] theorem field_422_high : field (x ++ y ++ z) 4 4 = x :=
  (BitVec.extractLsb'_append_eq_of_le (by decide)).trans BitVec.extractLsb'_append_eq_left

@[simp] theorem field_422_mid : field (x ++ y ++ z) 2 2 = y :=
  (BitVec.extractLsb'_append_eq_of_le (by decide)).trans BitVec.extractLsb'_append_eq_right

@[simp] theorem field_422_low : field (x ++ y ++ z) 0 2 = z := BitVec.extractLsb'_append_eq_right

end Fields422

/-! ## Format X2 -/

section Fields2222

variable (w x y z : BitVec 2)

@[simp] theorem field_2222_high : field (w ++ x ++ y ++ z) 6 2 = w :=
  (BitVec.extractLsb'_append_eq_of_le (by decide)).trans <|
    (BitVec.extractLsb'_append_eq_of_le (by decide)).trans BitVec.extractLsb'_append_eq_left

@[simp] theorem field_2222_midHigh : field (w ++ x ++ y ++ z) 4 2 = x :=
  (BitVec.extractLsb'_append_eq_of_le (by decide)).trans <|
    (BitVec.extractLsb'_append_eq_of_le (by decide)).trans BitVec.extractLsb'_append_eq_right

@[simp] theorem field_2222_midLow : field (w ++ x ++ y ++ z) 2 2 = y :=
  (BitVec.extractLsb'_append_eq_of_le (by decide)).trans BitVec.extractLsb'_append_eq_right

@[simp] theorem field_2222_low : field (w ++ x ++ y ++ z) 0 2 = z := BitVec.extractLsb'_append_eq_right

end Fields2222

/-! ## Format RO, first operand byte -/

section Fields224

variable (x y : BitVec 2) (z : BitVec 4)

@[simp] theorem field_224_high : field (x ++ y ++ z) 6 2 = x :=
  (BitVec.extractLsb'_append_eq_of_le (by decide)).trans BitVec.extractLsb'_append_eq_left

@[simp] theorem field_224_mid : field (x ++ y ++ z) 4 2 = y :=
  (BitVec.extractLsb'_append_eq_of_le (by decide)).trans BitVec.extractLsb'_append_eq_right

@[simp] theorem field_224_low : field (x ++ y ++ z) 0 4 = z := BitVec.extractLsb'_append_eq_right

end Fields224

end Sys2Proof
end

section
/-! SUPPORT. The two-form first bytes: each with its register form and its immediate form (30_encoding.md R95, R96). -/

namespace Sys2Proof

open Sys2Proof.Machine

/-- The eight first bytes two forms share (R110). -/
inductive TwoForm : Byte → (Reg → Reg → Instr) → (BitVec 4 → Reg → BitVec 2 → Instr) → Prop where
  | add : TwoForm 0xC0#8 .addR .addI
  | sub : TwoForm 0xC1#8 .subR .subI
  | mul : TwoForm 0xC2#8 .mulR .mulI
  | div : TwoForm 0xC3#8 .divR .divI
  | rol : TwoForm 0xE4#8 .rolR .rolI
  | ror : TwoForm 0xE5#8 .rorR .rorI
  | shl : TwoForm 0xE6#8 .shlR .shlI
  | shr : TwoForm 0xE7#8 .shrR .shrI

theorem TwoForm.of_twoFormByte {b0 : Byte} (h : twoFormByte b0.toNat = true) : ∃ r i, TwoForm b0 r i := by
  have hbyte : b0 = 0xC0#8 ∨ b0 = 0xC1#8 ∨ b0 = 0xC2#8 ∨ b0 = 0xC3#8 ∨ b0 = 0xE4#8 ∨ b0 = 0xE5#8 ∨ b0 = 0xE6#8 ∨
      b0 = 0xE7#8 := by
    simp only [twoFormByte, Bool.or_eq_true, Bool.and_eq_true, decide_eq_true_eq] at h
    simp only [← BitVec.toNat_inj, BitVec.toNat_ofNat]
    omega
  rcases hbyte with rfl | rfl | rfl | rfl | rfl | rfl | rfl | rfl
  · exact ⟨_, _, .add⟩
  · exact ⟨_, _, .sub⟩
  · exact ⟨_, _, .mul⟩
  · exact ⟨_, _, .div⟩
  · exact ⟨_, _, .rol⟩
  · exact ⟨_, _, .ror⟩
  · exact ⟨_, _, .shl⟩
  · exact ⟨_, _, .shr⟩

section Forms

variable {b0 : Byte} {r : Reg → Reg → Instr} {i : BitVec 4 → Reg → BitVec 2 → Instr}

theorem TwoForm.decodeBytes_eq (h : TwoForm b0 r i) (b1 b2 : Byte) : decodeBytes b0 b1 b2 = twoForm b1 r i := by
  cases h <;> rfl

theorem TwoForm.encode_register (h : TwoForm b0 r i) (rM rL : Reg) : encode (r rM rL) = encA2R b0 rM rL := by
  cases h <;> rfl

theorem TwoForm.encode_immediate (h : TwoForm b0 r i) (v : BitVec 4) (d : Reg) (ign : BitVec 2) :
    encode (i v d ign) = encA2I b0 v d ign := by
  cases h <;> rfl

theorem TwoForm.wf_register (h : TwoForm b0 r i) (rM rL : Reg) : (r rM rL).wf = true := by
  cases h <;> rfl

theorem TwoForm.wf_immediate (h : TwoForm b0 r i) (v : BitVec 4) (d : Reg) (ign : BitVec 2) :
    (i v d ign).wf = (v != 0#4) := by
  cases h <;> rfl

theorem TwoForm.isRegisterForm_register (h : TwoForm b0 r i) (rM rL : Reg) : (r rM rL).isRegisterForm = true := by
  cases h <;> rfl

theorem TwoForm.isRegisterForm_immediate (h : TwoForm b0 r i) (v : BitVec 4) (d : Reg) (ign : BitVec 2) :
    (i v d ign).isRegisterForm = false := by
  cases h <;> rfl

/-- The ignored bits of an immediate form have no part in its meaning (R109). -/
theorem TwoForm.exec_immediate (h : TwoForm b0 r i) (v : BitVec 4) (d : Reg) (ign ign' : BitVec 2) (s : State) :
    exec (i v d ign) s = exec (i v d ign') s := by
  cases h <;> rfl

end Forms

variable {r : Reg → Reg → Instr} {i : BitVec 4 → Reg → BitVec 2 → Instr}

theorem twoForm_of_register {b1 : Byte} (h : field b1 4 4 = 0#4) : twoForm b1 r i = r (regField b1 2) (regField b1 0) :=
  if_pos h

theorem twoForm_of_immediate {b1 : Byte} (h : field b1 4 4 ≠ 0#4) :
    twoForm b1 r i = i (field b1 4 4) (regField b1 2) (field b1 0 2) :=
  if_neg h

end Sys2Proof
end

section
/-! SUPPORT. From an instruction to its bytes and back (30_encoding.md R92 to R105). -/

namespace Sys2Proof

/-- The decoder on the bytes at the head of a list, zeros after the last one. -/
def headInstr (bytes : List Byte) : Instr := decodeBytes (bytes.getD 0 0#8) (bytes.getD 1 0#8) (bytes.getD 2 0#8)

section Forms

variable {b0 : Byte} {r : Reg → Reg → Instr} {i : BitVec 4 → Reg → BitVec 2 → Instr}

theorem TwoForm.headInstr_register (h : TwoForm b0 r i) (rM rL : Reg) : headInstr (encode (r rM rL)) = r rM rL := by
  have hdecode : headInstr (encA2R b0 rM rL) = twoForm (0b0000#4 ++ rM.code ++ rL.code) r i := h.decodeBytes_eq _ _
  rw [h.encode_register, hdecode, twoForm_of_register (field_422_high ..)]
  simp [regField]

theorem TwoForm.headInstr_immediate (h : TwoForm b0 r i) {v : BitVec 4} {d : Reg} {ign : BitVec 2}
    (hwf : (i v d ign).wf = true) : headInstr (encode (i v d ign)) = i v d ign := by
  have hv : v ≠ 0#4 := by simpa [h.wf_immediate] using hwf
  have hdecode : headInstr (encA2I b0 v d ign) = twoForm (v ++ d.code ++ ign) r i := h.decodeBytes_eq _ _
  rw [h.encode_immediate, hdecode, twoForm_of_immediate (by simpa using hv)]
  simp [regField]

end Forms

theorem operand16_bytes (v : Word) : operand16 (v.extractLsb' 8 8) (v.extractLsb' 0 8) = v :=
  Machine.word_bytes_append v

theorem operand12_bytes (x y : BitVec 2) (v : BitVec 12) :
    operand12 (x ++ y ++ v.extractLsb' 8 4) (v.extractLsb' 0 8) = v := by
  rw [operand12, field_224_low, BitVec.extractLsb'_append_extractLsb'_eq_extractLsb' (Nat.zero_add 8).symm]
  exact BitVec.extractLsb'_eq_self

/-! Each format with operand bytes: what the decoder is given, and the operands the rows of the format read there. -/

theorem headInstr_encI8 (op imm8 : Byte) : headInstr (encI8 op imm8) = decodeBytes op imm8 0#8 := rfl

theorem headInstr_encM3 (op : Byte) (mZ mC mS : Bool) (ign : BitVec 5) :
    headInstr (encM3 op mZ mC mS ign) =
      decodeBytes op (BitVec.ofBool mZ ++ BitVec.ofBool mC ++ BitVec.ofBool mS ++ ign) 0#8 := rfl

theorem headInstr_encX4 (op : Byte) (imm4 : BitVec 4) (rM rL : Reg) :
    headInstr (encX4 op imm4 rM rL) = decodeBytes op (imm4 ++ rM.code ++ rL.code) 0#8 := rfl

theorem headInstr_encX2 (op : Byte) (imm2 : BitVec 2) (rM rMid rL : Reg) :
    headInstr (encX2 op imm2 rM rMid rL) = decodeBytes op (imm2 ++ rM.code ++ rMid.code ++ rL.code) 0#8 := rfl

theorem headInstr_encA16 (op : Byte) (addr : Word) :
    headInstr (encA16 op addr) = decodeBytes op (addr.extractLsb' 8 8) (addr.extractLsb' 0 8) := rfl

theorem headInstr_encRO (op : Byte) (ign : BitVec 2) (r : Reg) (off : BitVec 12) :
    headInstr (encRO op ign r off) = decodeBytes op (ign ++ r.code ++ off.extractLsb' 8 4) (off.extractLsb' 0 8) := rfl

theorem headInstr_encRI16 (op : BitVec 6) (r : Reg) (imm : Word) :
    headInstr (encRI16 op r imm) = decodeBytes (op ++ r.code) (imm.extractLsb' 8 8) (imm.extractLsb' 0 8) := rfl

theorem operands_m3 (mZ mC mS : Bool) (ign : BitVec 5) :
    let b : Byte := BitVec.ofBool mZ ++ BitVec.ofBool mC ++ BitVec.ofBool mS ++ ign
    Instr.cli (b.getLsbD 7) (b.getLsbD 6) (b.getLsbD 5) (field b 0 5) = .cli mZ mC mS ign := by
  revert mZ mC mS ign; decide

theorem operands_x4 (i : BitVec 4 → Reg → Reg → Instr) (imm4 : BitVec 4) (rM rL : Reg) :
    let b : Byte := imm4 ++ rM.code ++ rL.code
    i (field b 4 4) (regField b 2) (regField b 0) = i imm4 rM rL := by
  simp [regField]

theorem operands_x2 (i : BitVec 2 → Reg → Reg → Reg → Instr) (imm2 : BitVec 2) (rM rMid rL : Reg) :
    let b : Byte := imm2 ++ rM.code ++ rMid.code ++ rL.code
    i (field b 6 2) (regField b 4) (regField b 2) (regField b 0) = i imm2 rM rMid rL := by
  simp [regField]

theorem operands_ro (i : BitVec 2 → Reg → BitVec 12 → Instr) (ign : BitVec 2) (r : Reg) (off : BitVec 12) :
    let b1 : Byte := ign ++ r.code ++ off.extractLsb' 8 4
    i (field b1 6 2) (regField b1 4) (operand12 b1 (off.extractLsb' 0 8)) = i ign r off := by
  simp only [regField, field_224_high, field_224_mid, regOfCode_code, operand12_bytes]

/-- One case per format: the first byte selects the row, the fields of the byte give back the operands. -/
theorem headInstr_encode {i : Instr} (hwf : i.wf = true) : headInstr (encode i) = i := by
  cases i with
  | nop | int | eni | dei | rst | hlt | cmp | ret => rfl
  | pus r | pop r | jmp r | jiz r | jnz r | jlt r | jge r | jof r | jnf r => cases r <;> rfl
  | neg r | not r | inc r | dec r => cases r <;> rfl
  | mov rM rL | lod rM rL | sto rM rL | and rM rL | ior rM rL | xor rM rL => cases rM <;> cases rL <;> rfl
  | addR | subR | mulR | divR | rolR | rorR | shlR | shrR => exact TwoForm.headInstr_register (by constructor) _ _
  | addI | subI | mulI | divI | rolI | rorI | shlI | shrI => exact TwoForm.headInstr_immediate (by constructor) hwf
  | irf | jmi | jzi | jni | jli | jgi | joi | jui => exact headInstr_encI8 _ _
  | cli mZ mC mS ign => exact (headInstr_encM3 ..).trans (operands_m3 ..)
  | ldi => exact (headInstr_encX4 ..).trans (operands_x4 .ldi ..)
  | sti => exact (headInstr_encX4 ..).trans (operands_x4 .sti ..)
  | lri => exact (headInstr_encX2 ..).trans (operands_x2 .lri ..)
  | sri => exact (headInstr_encX2 ..).trans (operands_x2 .sri ..)
  | ljp addr16 => exact (headInstr_encA16 ..).trans (congrArg Instr.ljp (operand16_bytes addr16))
  | cal addr16 => exact (headInstr_encA16 ..).trans (congrArg Instr.cal (operand16_bytes addr16))
  | rcl addr16 => exact (headInstr_encA16 ..).trans (congrArg Instr.rcl (operand16_bytes addr16))
  | mvi r imm16 => cases r <;> exact (headInstr_encRI16 ..).trans (congrArg (Instr.mvi _) (operand16_bytes imm16))
  | car => exact (headInstr_encRO ..).trans (operands_ro .car ..)
  | rcr => exact (headInstr_encRO ..).trans (operands_ro .rcr ..)
  | reserved0A low | reserved0C low | reserved18 low | reserved1C low | reserved40 low | reserved88 low =>
    revert low; decide
  | unlisted06 low | unlisted20 low | unlistedC4 low | unlistedC8 low | unlistedD4 low | unlistedD8 low
  | unlistedE0 low => revert low; decide
  | reserved1E | unlistedE2 => rfl

end Sys2Proof
end

section
/-! SUPPORT. From bytes to an instruction and back (30_encoding.md R105, R110). -/

namespace Sys2Proof

/-- `i` is well-formed, and its encoding is the first of these bytes. -/
def Encodes (i : Instr) (b0 b1 b2 : Byte) : Prop := i.wf = true ∧ encode i <+: [b0, b1, b2]

section Formats

variable {i : Instr} {b0 b1 b2 : Byte}

theorem Encodes.of_one (hwf : i.wf = true) (h : encode i = [b0]) : Encodes i b0 b1 b2 :=
  ⟨hwf, [b1, b2], by rw [h]; rfl⟩

theorem Encodes.of_two (hwf : i.wf = true) (h : encode i = [b0, b1]) : Encodes i b0 b1 b2 :=
  ⟨hwf, [b2], by rw [h]; rfl⟩

theorem Encodes.of_three (hwf : i.wf = true) (h : encode i = [b0, b1, b2]) : Encodes i b0 b1 b2 :=
  ⟨hwf, [], by rw [h]; rfl⟩

theorem encR_regField {op : BitVec 6} (h : (field b0 2 6).toNat = op.toNat) : encR op (regField b0 0) = [b0] := by
  rw [encR, code_regField, pattern6_append_field h]

theorem encRR_regField {op : BitVec 4} (h : (field b0 2 6).toNat / 4 = op.toNat) :
    encRR op (regField b0 2) (regField b0 0) = [b0] := by
  have hop : field b0 4 4 = op := BitVec.eq_of_toNat_eq ((field_top4_toNat b0).trans h)
  rw [encRR, code_regField, code_regField, ← hop, fields_422]

theorem encX4_regField (op : Byte) : encX4 op (field b1 4 4) (regField b1 2) (regField b1 0) = [op, b1] := by
  rw [encX4, code_regField, code_regField, fields_422]

theorem encX2_regField (op : Byte) :
    encX2 op (field b1 6 2) (regField b1 4) (regField b1 2) (regField b1 0) = [op, b1] := by
  rw [encX2, code_regField, code_regField, code_regField, fields_2222]

theorem encM3_getLsbD (op : Byte) :
    encM3 op (b1.getLsbD 7) (b1.getLsbD 6) (b1.getLsbD 5) (field b1 0 5) = [op, b1] := by
  rw [encM3, fields_1115]

theorem encA16_operand16 (op : Byte) : encA16 op (operand16 b1 b2) = [op, b1, b2] := by
  rw [encA16, operand16, BitVec.extractLsb'_append_eq_left, BitVec.extractLsb'_append_eq_right]

theorem encRO_operand12 (op : Byte) :
    encRO op (field b1 6 2) (regField b1 4) (operand12 b1 b2) = [op, b1, b2] := by
  rw [encRO, operand12, BitVec.extractLsb'_append_eq_left, BitVec.extractLsb'_append_eq_right, code_regField,
    fields_224]

theorem encRI16_operand16 {op : BitVec 6} (h : (field b0 2 6).toNat = op.toNat) :
    encRI16 op (regField b0 0) (operand16 b1 b2) = [b0, b1, b2] := by
  rw [encRI16, operand16, BitVec.extractLsb'_append_eq_left, BitVec.extractLsb'_append_eq_right, code_regField,
    pattern6_append_field h]

/-- B1[7:4] = 0 makes the register form, and anything else is a legal imm4 of the immediate form (R95, R96). -/
theorem TwoForm.encodes {r : Reg → Reg → Instr} {j : BitVec 4 → Reg → BitVec 2 → Instr} (h : TwoForm b0 r j) :
    Encodes (twoForm b1 r j) b0 b1 b2 := by
  by_cases hform : field b1 4 4 = 0#4
  · rw [twoForm_of_register hform]
    refine .of_two (h.wf_register ..) ?_
    rw [h.encode_register, ← encX4_regField, hform]; rfl
  · rw [twoForm_of_immediate hform]
    refine .of_two (by simpa [h.wf_immediate] using hform) ?_
    rw [h.encode_immediate, ← encX4_regField, encX4, code_regField (lo := 0)]; rfl

end Formats

/-! ## The groups of four first bytes that hold several instructions -/

section Groups

variable {b0 : Byte} (b1 b2 : Byte)

theorem encodes_decodeControl00 (h : (field b0 2 6).toNat = 0x00) : Encodes (decodeControl00 b0) b0 b1 b2 := by
  rcases byte_cases_of_group h with rfl | rfl | rfl | rfl <;> exact .of_one rfl rfl

theorem encodes_decodeControl04 (h : (field b0 2 6).toNat = 0x01) : Encodes (decodeControl04 b0) b0 b1 b2 := by
  rcases byte_cases_of_group h with rfl | rfl | rfl | rfl <;> exact .of_one rfl rfl

theorem encodes_decodeControl08 (h : (field b0 2 6).toNat = 0x02) : Encodes (decodeControl08 b0) b0 b1 b2 := by
  rcases byte_cases_of_group h with rfl | rfl | rfl | rfl <;> exact .of_one rfl rfl

theorem encodes_decodeGroup1C (h : (field b0 2 6).toNat = 0x07) : Encodes (decodeGroup1C b0 b1 b2) b0 b1 b2 := by
  rcases byte_cases_of_group h with rfl | rfl | rfl | rfl
  · exact .of_one rfl rfl
  · exact .of_one rfl rfl
  · exact .of_one rfl rfl
  · exact .of_three rfl (encA16_operand16 _)

theorem encodes_decodeArithmetic (h : (field b0 2 6).toNat = 0x30) : Encodes (decodeArithmetic b0 b1) b0 b1 b2 := by
  rcases byte_cases_of_group h with rfl | rfl | rfl | rfl
  · exact TwoForm.add.encodes
  · exact TwoForm.sub.encodes
  · exact TwoForm.mul.encodes
  · exact TwoForm.div.encodes

theorem encodes_decodeSubroutine (h : (field b0 2 6).toNat = 0x34) : Encodes (decodeSubroutine b0 b1 b2) b0 b1 b2 := by
  rcases byte_cases_of_group h with rfl | rfl | rfl | rfl
  · exact .of_three rfl (encA16_operand16 _)
  · exact .of_three rfl (encA16_operand16 _)
  · exact .of_three rfl (encRO_operand12 _)
  · exact .of_three rfl (encRO_operand12 _)

theorem encodes_decodeGroupE0 (h : (field b0 2 6).toNat = 0x38) : Encodes (decodeGroupE0 b0 b1) b0 b1 b2 := by
  rcases byte_cases_of_group h with rfl | rfl | rfl | rfl
  · exact .of_one rfl rfl
  · exact .of_one rfl rfl
  · exact .of_one rfl rfl
  · exact .of_two rfl rfl

theorem encodes_decodeShift (h : (field b0 2 6).toNat = 0x39) : Encodes (decodeShift b0 b1) b0 b1 b2 := by
  rcases byte_cases_of_group h with rfl | rfl | rfl | rfl
  · exact TwoForm.rol.encodes
  · exact TwoForm.ror.encodes
  · exact TwoForm.shl.encodes
  · exact TwoForm.shr.encodes

theorem encodes_decodeLocalE8 (h : (field b0 2 6).toNat = 0x3A) : Encodes (decodeLocalE8 b0 b1) b0 b1 b2 := by
  rcases byte_cases_of_group h with rfl | rfl | rfl | rfl
  · exact .of_two rfl (encM3_getLsbD _)
  · exact .of_two rfl rfl
  · exact .of_two rfl rfl
  · exact .of_two rfl rfl

theorem encodes_decodeLocalEC (h : (field b0 2 6).toNat = 0x3B) : Encodes (decodeLocalEC b0 b1) b0 b1 b2 := by
  rcases byte_cases_of_group h with rfl | rfl | rfl | rfl <;> exact .of_two rfl rfl

theorem encodes_decodeIndexed (h : (field b0 2 6).toNat = 0x3C) : Encodes (decodeIndexed b0 b1) b0 b1 b2 := by
  rcases byte_cases_of_group h with rfl | rfl | rfl | rfl
  · exact .of_two rfl (encX4_regField _)
  · exact .of_two rfl (encX4_regField _)
  · exact .of_two rfl (encX2_regField _)
  · exact .of_two rfl (encX2_regField _)

end Groups

/-- By bits 7:2 of the first byte, as the decoder goes: a format's row by the format's lemma, a group by the group's. -/
theorem encodes_decodeBytes (b0 b1 b2 : Byte) : Encodes (decodeBytes b0 b1 b2) b0 b1 b2 := by
  unfold decodeBytes
  split
  case h_1 h => exact encodes_decodeControl00 b1 b2 h
  case h_2 h => exact encodes_decodeControl04 b1 b2 h
  case h_3 h => exact encodes_decodeControl08 b1 b2 h
  case h_8 h => exact encodes_decodeGroup1C b1 b2 h
  case h_49 h => exact encodes_decodeArithmetic b1 b2 h
  case h_53 h => exact encodes_decodeSubroutine b1 b2 h
  case h_57 h => exact encodes_decodeGroupE0 b1 b2 h
  case h_58 h => exact encodes_decodeShift b1 b2 h
  case h_59 h => exact encodes_decodeLocalE8 b1 b2 h
  case h_60 h => exact encodes_decodeLocalEC b1 b2 h
  case h_61 h => exact encodes_decodeIndexed b1 b2 h
  case h_5 h | h_6 h | h_10 h | h_11 h | h_12 h | h_13 h | h_14 h | h_15 h | h_16 h | h_33 h | h_34 h | h_63 h =>
    exact .of_one rfl (encR_regField h)
  case h_21 h | h_22 h | h_23 h | h_24 h | h_25 h | h_26 h | h_27 h | h_28 h | h_29 h | h_30 h | h_31 h | h_32 h |
    h_37 h | h_38 h | h_39 h | h_40 h | h_41 h | h_42 h | h_43 h | h_44 h | h_45 h | h_46 h | h_47 h | h_48 h =>
    exact .of_one rfl (encRR_regField (by rw [h]; rfl))
  case h_62 h =>
    exact .of_three rfl (encRI16_operand16 h)
  case h_4 h | h_7 h | h_9 h | h_50 h | h_54 h =>
    exact .of_one rfl (congrArg ([·]) (pattern6_append_field h))
  case h_35 h | h_36 h | h_51 h | h_52 h | h_55 h | h_56 h =>
    exact .of_one rfl (congrArg ([·]) (pattern5_append_field (by rw [h]; rfl)))
  case h_17 h | h_18 h | h_19 h | h_20 h =>
    exact .of_one rfl (congrArg ([·]) (pattern4_append_field (by rw [h]; rfl)))
  case h_64 =>
    have hlt := (field b0 2 6).isLt
    simp only [imp_false] at *
    have h : (field b0 2 6).toNat = 0x3F := by omega
    exact .of_one rfl (encR_regField h)

end Sys2Proof
end

section
/-! SUPPORT. The two round trips: for three bytes at hand, then for a list (30_encoding.md R90, R110). -/

namespace Sys2Proof

theorem encode_decodeBytes (b0 b1 b2 : Byte) : encode (decodeBytes b0 b1 b2) = [b0, b1, b2].take (lengthOf b0) := by
  obtain ⟨-, hprefix⟩ := encodes_decodeBytes b0 b1 b2
  have hlen : (encode (decodeBytes b0 b1 b2)).length = lengthOf b0 := decodeBytes_length b0 b1 b2
  rw [List.prefix_iff_eq_take.1 hprefix, hlen]

theorem firstByte_decodeBytes (b0 b1 b2 : Byte) : (encode (decodeBytes b0 b1 b2)).getD 0 0#8 = b0 := by
  rw [encode_decodeBytes]
  rcases Machine.lengthOf_cases b0 with h | h | h <;> rw [h] <;> rfl

/-- The decoder reads no byte past the length. -/
theorem decodeBytes_eq_headInstr (b0 b1 b2 : Byte) :
    decodeBytes b0 b1 b2 = headInstr ([b0, b1, b2].take (lengthOf b0)) := by
  obtain ⟨hwf, -⟩ := encodes_decodeBytes b0 b1 b2
  rw [← encode_decodeBytes, headInstr_encode hwf]

/-- As many bytes as the first one asks for are decoded alone, whatever follows. -/
theorem decode_append {bytes : List Byte} (hlen : bytes.length = lengthOf (bytes.getD 0 0#8)) (rest : List Byte) :
    decode (bytes ++ rest) = .ok (headInstr bytes, rest) := by
  match bytes with
  | [] => exact absurd hlen (by decide)
  | b0 :: tail =>
    rw [List.getD_cons_zero] at hlen
    have hshort : ¬(tail ++ rest).length + 1 < lengthOf b0 := by simp [← hlen]
    have hinstr : decodeBytes b0 ((tail ++ rest).getD 0 0#8) ((tail ++ rest).getD 1 0#8) = headInstr (b0 :: tail) := by
      rw [decodeBytes_eq_headInstr, ← hlen]
      match tail with
      | [] | [b1] | [b1, b2] => rfl
      | _ :: _ :: _ :: _ => rcases Machine.lengthOf_cases b0 with h | h | h <;> simp [h] at hlen
    rw [List.cons_append, decode, if_neg hshort, hinstr, ← hlen]
    simp

theorem decode_encode {i : Instr} (hwf : i.wf = true) (rest : List Byte) : decode (encode i ++ rest) = .ok (i, rest) := by
  have hhead : headInstr (encode i) = i := headInstr_encode hwf
  have hlen : (encode i).length = lengthOf ((encode i).getD 0 0#8) := by
    have := decodeBytes_length ((encode i).getD 0 0#8) ((encode i).getD 1 0#8) ((encode i).getD 2 0#8)
    rwa [← headInstr, hhead] at this
  rw [decode_append hlen, hhead]

/-- What the decoder answers, and from which bytes. -/
theorem decode_eq_ok {bytes : List Byte} {i : Instr} {rest : List Byte} (h : decode bytes = .ok (i, rest)) :
    ∃ b0 tail, bytes = b0 :: tail ∧ lengthOf b0 ≤ tail.length + 1 ∧
      i = decodeBytes b0 (tail.getD 0 0#8) (tail.getD 1 0#8) ∧ rest = tail.drop (lengthOf b0 - 1) := by
  cases bytes with
  | nil => cases h
  | cons b0 tail =>
    rw [decode] at h
    split at h
    · cases h
    · next hlen => cases h; exact ⟨b0, tail, rfl, by omega, rfl, rfl⟩

theorem encode_of_decode {bytes : List Byte} {i : Instr} {rest : List Byte} (h : decode bytes = .ok (i, rest)) :
    i.wf = true ∧ encode i ++ rest = bytes := by
  obtain ⟨b0, tail, rfl, hlen, rfl, rfl⟩ := decode_eq_ok h
  refine ⟨(encodes_decodeBytes ..).1, ?_⟩
  rw [encode_decodeBytes]
  rcases Machine.lengthOf_cases b0 with hn | hn | hn <;> rw [hn] at hlen ⊢
  · rfl
  · obtain ⟨b1, tail, rfl⟩ := List.exists_cons_of_length_pos (l := tail) (by omega)
    rfl
  · obtain ⟨b1, tail, rfl⟩ := List.exists_cons_of_length_pos (l := tail) (by omega)
    obtain ⟨b2, tail, rfl⟩ := List.exists_cons_of_length_pos (l := tail) (by rw [List.length_cons] at hlen; omega)
    rfl

end Sys2Proof
end

section
/-! SUPPORT. The bytes of each format as numbers (30_encoding.md R91 to R103). -/

namespace Sys2Proof

theorem toNat_append_eq_add {v w : Nat} (x : BitVec v) (y : BitVec w) : (x ++ y).toNat = 2 ^ w * x.toNat + y.toNat := by
  rw [BitVec.toNat_append, Nat.shiftLeft_eq, Nat.mul_comm, ← Nat.two_pow_add_eq_or_of_lt y.isLt]

theorem code_toNat (r : Reg) : r.code.toNat = r.number := by cases r <;> rfl

theorem eq_ofNat_of_toNat {w n : Nat} {b : BitVec w} (h : b.toNat = n) : b = BitVec.ofNat w n := by
  rw [← h, BitVec.ofNat_toNat, BitVec.setWidth_eq]

/-- An operand byte of format A2R, A2I or X4. -/
theorem byte_422_eq_ofNat (x : BitVec 4) (r : Reg) (z : BitVec 2) :
    x ++ r.code ++ z = BitVec.ofNat 8 (16 * x.toNat + 4 * r.number + z.toNat) := by
  refine eq_ofNat_of_toNat ((toNat_append_eq_add _ _).trans ?_)
  rw [toNat_append_eq_add, code_toNat]
  omega

/-- The first byte of format R or RI16. -/
theorem byte_62_eq_ofNat {op : BitVec 6} {k : Nat} (hk : 4 * op.toNat = k) (r : Reg) :
    op ++ r.code = BitVec.ofNat 8 (k + r.number) := by
  refine eq_ofNat_of_toNat ((toNat_append_eq_add op r.code).trans ?_)
  rw [code_toNat, ← hk]; rfl

theorem encR_eq_ofNat {op : BitVec 6} {k : Nat} (hk : 4 * op.toNat = k) (r : Reg) :
    encR op r = [BitVec.ofNat 8 (k + r.number)] := by
  rw [encR, byte_62_eq_ofNat hk]

theorem encRR_eq_ofNat {op : BitVec 4} {k : Nat} (hk : 16 * op.toNat = k) (rM rL : Reg) :
    encRR op rM rL = [BitVec.ofNat 8 (k + (4 * rM.number + rL.number))] := by
  rw [encRR, byte_422_eq_ofNat, code_toNat, hk, Nat.add_assoc]

theorem encA2R_eq_ofNat (op : Byte) (rM rL : Reg) :
    encA2R op rM rL = [op, BitVec.ofNat 8 (4 * rM.number + rL.number)] := by
  rw [encA2R, byte_422_eq_ofNat, code_toNat, BitVec.toNat_zero, Nat.mul_zero, Nat.zero_add]

theorem encA2I_eq_ofNat (op : Byte) (imm4 : BitVec 4) (r : Reg) (ign : BitVec 2) :
    encA2I op imm4 r ign = [op, BitVec.ofNat 8 (16 * imm4.toNat + 4 * r.number + ign.toNat)] := by
  rw [encA2I, byte_422_eq_ofNat]

theorem encI8_eq_ofNat (op imm8 : Byte) : encI8 op imm8 = [op, BitVec.ofNat 8 imm8.toNat] := by
  rw [encI8, ← eq_ofNat_of_toNat rfl]

theorem encM3_eq_ofNat (op : Byte) (mZ mC mS : Bool) (ign : BitVec 5) :
    encM3 op mZ mC mS ign =
      [op, BitVec.ofNat 8 (128 * mZ.toNat + 64 * mC.toNat + 32 * mS.toNat + ign.toNat)] := by
  refine congrArg ([op, ·]) (eq_ofNat_of_toNat ((toNat_append_eq_add _ _).trans ?_))
  simp only [toNat_append_eq_add, BitVec.toNat_ofBool]
  omega

theorem encX4_eq_ofNat (op : Byte) (imm4 : BitVec 4) (rM rL : Reg) :
    encX4 op imm4 rM rL = [op, BitVec.ofNat 8 (16 * imm4.toNat + 4 * rM.number + rL.number)] := by
  rw [encX4, byte_422_eq_ofNat, code_toNat]

theorem encX2_eq_ofNat (op : Byte) (imm2 : BitVec 2) (rM rMid rL : Reg) :
    encX2 op imm2 rM rMid rL =
      [op, BitVec.ofNat 8 (64 * imm2.toNat + 16 * rM.number + 4 * rMid.number + rL.number)] := by
  refine congrArg ([op, ·]) (eq_ofNat_of_toNat ((toNat_append_eq_add _ _).trans ?_))
  simp only [toNat_append_eq_add, code_toNat]
  omega

theorem operand16_eq_ofNat (b1 b2 : Byte) : operand16 b1 b2 = BitVec.ofNat 16 (256 * b1.toNat + b2.toNat) :=
  eq_ofNat_of_toNat (toNat_append_eq_add b1 b2)

theorem encA16_ofNat (op b1 b2 : Byte) : encA16 op (BitVec.ofNat 16 (256 * b1.toNat + b2.toNat)) = [op, b1, b2] := by
  rw [← operand16_eq_ofNat, encA16_operand16]

theorem encRI16_ofNat {op : BitVec 6} {k : Nat} (hk : 4 * op.toNat = k) (r : Reg) (b1 b2 : Byte) :
    encRI16 op r (BitVec.ofNat 16 (256 * b1.toNat + b2.toNat)) = [BitVec.ofNat 8 (k + r.number), b1, b2] := by
  rw [encRI16, byte_62_eq_ofNat hk, ← operand16_eq_ofNat, operand16, BitVec.extractLsb'_append_eq_left,
    BitVec.extractLsb'_append_eq_right]

/-! A known encoding, read back. -/

section ReadBack

variable {i : Instr} {b0 b1 b2 : Byte} {rest : List Byte}

theorem decode_of_encode_one (h : encode i = [b0]) (hwf : i.wf = true) : decode (b0 :: rest) = .ok (i, rest) := by
  have hdecode := decode_encode hwf rest
  rwa [h] at hdecode

theorem decode_of_encode_two (h : encode i = [b0, b1]) (hwf : i.wf = true) :
    decode (b0 :: b1 :: rest) = .ok (i, rest) := by
  have hdecode := decode_encode hwf rest
  rwa [h] at hdecode

theorem decode_of_encode_three (h : encode i = [b0, b1, b2]) (hwf : i.wf = true) :
    decode (b0 :: b1 :: b2 :: rest) = .ok (i, rest) := by
  have hdecode := decode_encode hwf rest
  rwa [h] at hdecode

end ReadBack

end Sys2Proof
end

section
/-! SUPPORT. Ignored bits: a field outside the bits a mask clears (30_encoding.md R109). -/

namespace Sys2Proof

open Sys2Proof.Machine

theorem field_and_of_ones {m : Byte} {lo w : Nat} (h : field m lo w = BitVec.allOnes w) (b : Byte) :
    field (b &&& m) lo w = field b lo w := by
  rw [field, BitVec.extractLsb'_and, ← field, ← field, h, BitVec.and_allOnes]

theorem regField_and_of_ones {m : Byte} {lo : Nat} (h : field m lo 2 = BitVec.allOnes 2) (b : Byte) :
    regField (b &&& m) lo = regField b lo := by
  rw [regField, field_and_of_ones h, ← regField]

/-- B1[7:4] selects the form (R95, R96). -/
theorem field_form_eq_zero_iff (b1 : Byte) : field b1 4 4 = 0#4 ↔ b1.toNat / 16 = 0 := by
  have := b1.isLt
  rw [← BitVec.toNat_inj, field_toNat, BitVec.toNat_zero]
  omega

/-! Where the operands of CLI, CAR and RCR come from: not from the ignored bits. -/

theorem exec_cliBytes (b1 b2 : Byte) (s : State) :
    exec (decodeBytes 0xE8#8 b1 b2) s = execCli (b1.getLsbD 7) (b1.getLsbD 6) (b1.getLsbD 5) 0#5 s := rfl

theorem exec_carBytes (b1 b2 : Byte) (s : State) :
    exec (decodeBytes 0xD2#8 b1 b2) s = s.calling (s.eaOff12 (regField b1 4) (operand12 b1 b2)) := rfl

theorem exec_rcrBytes (b1 b2 : Byte) (s : State) :
    exec (decodeBytes 0xD3#8 b1 b2) s = s.returning (s.eaOff12 (regField b1 4) (operand12 b1 b2)) := rfl

end Sys2Proof
end

section
/-! SUPPORT. Which instructions fault: the reserved and unlisted rows alone, and those by their first byte
(30_encoding.md R107, R108). -/

namespace Sys2Proof.Machine

/-- The fault of a first byte that stands for no instruction. -/
def byteFault (b0 : Byte) : Option Fault :=
  if reservedByte b0.toNat then some .reservedOpcode
  else if unlistedByte b0.toNat then some .unlistedOpcode
  else none

theorem byteFault_eq_reserved (b0 : Byte) : byteFault b0 = some .reservedOpcode ↔ reservedByte b0.toNat = true := by
  unfold byteFault
  split_ifs <;> simp_all

theorem byteFault_eq_unlisted (b0 : Byte) : byteFault b0 = some .unlistedOpcode ↔ unlistedByte b0.toNat = true := by
  revert b0; decide

theorem byteFault_ne_asleep (b0 : Byte) : byteFault b0 ≠ some .asleep := by
  unfold byteFault
  split_ifs <;> simp

/-- The fault of each of the fifteen rows; `rowFault_eq_byteFault` and `exec_eq_fault_iff` tie it to the model. -/
def rowFault : Instr → Option Fault
  | .reserved0A _ | .reserved0C _ | .reserved18 _ | .reserved1C _ | .reserved1E | .reserved40 _ | .reserved88 _ =>
    some .reservedOpcode
  | .unlisted06 _ | .unlisted20 _ | .unlistedC4 _ | .unlistedC8 _ | .unlistedD4 _ | .unlistedD8 _ | .unlistedE0 _
  | .unlistedE2 => some .unlistedOpcode
  | _ => none

theorem isListed_eq_isNone (i : Instr) : i.isListed = (rowFault i).isNone := by cases i <;> rfl

/-- The rows are those of the reserved and unlisted first bytes. -/
theorem rowFault_eq_byteFault (i : Instr) : rowFault i = byteFault ((encode i).getD 0 0#8) := by
  cases i with
  | pus r | pop r | jmp r | jiz r | jnz r | jlt r | jge r | jof r | jnf r => cases r <;> rfl
  | neg r | not r | inc r | dec r | mvi r => cases r <;> rfl
  | mov rM rL | lod rM rL | sto rM rL | and rM rL | ior rM rL | xor rM rL => cases rM <;> cases rL <;> rfl
  | reserved0A low | reserved0C low | reserved18 low | reserved1C low | reserved40 low | reserved88 low =>
    revert low; decide
  | unlisted06 low | unlisted20 low | unlistedC4 low | unlistedC8 low | unlistedD4 low | unlistedD8 low
  | unlistedE0 low => revert low; decide
  | _ => rfl

theorem rowFault_decodeBytes (b0 b1 b2 : Byte) : rowFault (decodeBytes b0 b1 b2) = byteFault b0 := by
  rw [rowFault_eq_byteFault, firstByte_decodeBytes]

end Sys2Proof.Machine
end

section
/-! SUPPORT. How the execution of an instruction ends: at the addresses of the table of R61 where the map refuses it
(20_memory.md R61, R68; log 17), as a fault for a row without an instruction, else with a next state. -/

namespace Sys2Proof.Machine

section Outcomes

variable {s : State} {reads writes : List Word} {o : Host.Outcome State Fault Refusal} {P : State → Prop}

/-- An instruction that accesses no data. -/
theorem State.accesses_next {t : State} (h : P t) : s.Accesses [] [] (.next t) P :=
  ⟨fun _ _ => ⟨t, rfl, h⟩, by simp⟩

theorem State.Accesses.completes_or_refusedAt (h : s.Accesses reads writes o P) :
    Completes o P ∨ s.RefusedAt reads writes o := by
  obtain ⟨hcompletes, hrefused⟩ := h
  by_cases hreads : ∃ a ∈ reads, s.kindAt a = .device
  · exact .inr (hrefused (.inl hreads))
  by_cases hwrites : ∃ a ∈ writes, s.kindAt a ≠ .ram
  · exact .inr (hrefused (.inr hwrites))
  · exact .inl (hcompletes (fun a ha hd => hreads ⟨a, ha, hd⟩) fun a ha => by_contra fun hd => hwrites ⟨a, ha, hd⟩)

theorem State.Accesses.ne_fault (h : s.Accesses reads writes o P) (f : Fault) : o ≠ .fault f := by
  rcases h.completes_or_refusedAt with ⟨t, rfl, -⟩ | ⟨a, ⟨-, -, rfl⟩ | ⟨-, -, rfl⟩⟩ <;> simp

theorem State.Accesses.refusedAt (h : s.Accesses reads writes o P) {why : Refusal} (ho : o = .refused why) :
    s.RefusedAt reads writes o := by
  rcases h.completes_or_refusedAt with ⟨t, rfl, -⟩ | hrefused
  · cases ho
  · exact hrefused

theorem State.RefusedAt.mono {reads' writes' : List Word} (h : s.RefusedAt reads writes o)
    (hreads : ∀ a ∈ reads, a ∈ reads') (hwrites : ∀ a ∈ writes, a ∈ writes') : s.RefusedAt reads' writes' o := by
  obtain ⟨a, ⟨ha, hrest⟩ | ⟨ha, hrest⟩⟩ := h
  · exact ⟨a, .inl ⟨ha.imp (hreads a) (hwrites a), hrest⟩⟩
  · exact ⟨a, .inr ⟨hwrites a ha, hrest⟩⟩

/-- On the default map nothing is refused (20_memory.md R68). -/
theorem State.RefusedAt.memMap_ne_nil (h : s.RefusedAt reads writes o) : s.platform.memMap ≠ [] := by
  intro hmap
  obtain ⟨a, ⟨-, hkind, -⟩ | ⟨-, hkind, -⟩⟩ := h <;> rw [State.kindAt_default hmap] at hkind <;> cases hkind

end Outcomes

/-- Every listed instruction accesses what the table of R61 says, and nothing else can stop it. -/
theorem exec_accesses {i : Instr} (hi : i.isListed = true) (s : State) :
    s.Accesses (i.reads s) (i.writes s) (exec i s) fun _ => True := by
  cases i with
  | lod rM rL => exact State.reading_spec trivial
  | ldi imm4 rM rL => rw [Instr.reads, ← imm4Word_eq]; exact State.reading_spec trivial
  | lri imm2 rM rMid rL => rw [Instr.reads, ← imm2Word_eq]; exact State.reading_spec trivial
  | sto rM rL => exact State.writing_spec trivial
  | sti imm4 rM rL => rw [Instr.writes, ← imm4Word_eq]; exact State.writing_spec trivial
  | sri imm2 rM rMid rL => rw [Instr.writes, ← imm2Word_eq]; exact State.writing_spec trivial
  | pus r => exact State.writing_spec trivial
  | pop r => exact State.reading_spec trivial
  | cal | car => exact State.calling_spec trivial
  | rcl addr16 => exact State.reading_spec trivial
  | rcr ign r off12 => rw [Instr.reads, ← off12Word_eq]; exact State.reading_spec trivial
  | reserved0A | reserved0C | reserved18 | reserved1C | reserved1E | reserved40 | reserved88 => cases hi
  | unlisted06 | unlisted20 | unlistedC4 | unlistedC8 | unlistedD4 | unlistedD8 | unlistedE0 | unlistedE2 => cases hi
  | _ => exact State.accesses_next trivial

theorem exec_eq_fault_iff {i : Instr} {s : State} {f : Fault} : exec i s = .fault f ↔ rowFault i = some f := by
  cases i with
  | reserved0A | reserved0C | reserved18 | reserved1C | reserved1E | reserved40 | reserved88 =>
    exact ⟨fun h => by cases h; rfl, fun h => by cases h; rfl⟩
  | unlisted06 | unlisted20 | unlistedC4 | unlistedC8 | unlistedD4 | unlistedD8 | unlistedE0 | unlistedE2 =>
    exact ⟨fun h => by cases h; rfl, fun h => by cases h; rfl⟩
  | _ => exact iff_of_false ((exec_accesses rfl s).ne_fault f) nofun

theorem exec_refusedAt {i : Instr} {s : State} {why : Refusal} (h : exec i s = .refused why) :
    s.RefusedAt (i.reads s) (i.writes s) (exec i s) := by
  cases hf : rowFault i with
  | none => exact (exec_accesses (by rw [isListed_eq_isNone, hf]; rfl) s).refusedAt h
  | some f => rw [exec_eq_fault_iff.2 hf] at h; cases h

/-! ## Fetch and step -/

theorem reads_wake (i : Instr) (s : State) : i.reads s.wake = i.reads s := by cases i <;> rfl

theorem writes_wake (i : Instr) (s : State) : i.writes s.wake = i.writes s := by cases i <;> rfl

/-- A refusal names a byte of the instruction at PC, or one that instruction reads or writes. -/
theorem State.fetchAndExecute_refusedAt {s : State} {why : Refusal} (h : s.fetchAndExecute = .refused why) :
    s.RefusedAt (s.bytesOf s.instrAtPc ++ s.instrAtPc.reads s) (s.instrAtPc.writes s) s.fetchAndExecute := by
  obtain ⟨hexec, hrefused⟩ := s.fetchAndExecute_executesNext
  by_cases hdevice : ∃ a ∈ s.bytesOf s.instrAtPc, s.kindAt a = .device
  · exact (hrefused hdevice).mono (fun _ => List.mem_append_left _) nofun
  · have hrun := hexec fun a ha hd => hdevice ⟨a, ha, hd⟩
    rw [hrun] at h ⊢
    exact (exec_refusedAt h).mono (fun _ => List.mem_append_right _) fun _ => id

/-- A fault is that of the byte at PC. -/
theorem State.fetchAndExecute_fault {s : State} {f : Fault} (h : s.fetchAndExecute = .fault f) :
    byteFault (s.byteAt s.pc) = some f := by
  unfold State.fetchAndExecute at h
  split at h
  · rwa [exec_eq_fault_iff, State.fetch, rowFault_decodeBytes] at h
  · cases h

/-- The three kinds of step, from the state at the boundary (10_state.md R27). -/
theorem step_cases {s u : State} (hu : s.atBoundary u) :
    (u.halted = true ∧ u.rf = 0#8 ∧ step s = if s.events.isEmpty then .fault .asleep else .next u) ∨
    step s = .next (u.entered u.pc) ∨ step s = u.wake.fetchAndExecute := by
  by_cases ha : u.halted = true ∧ u.rf = 0#8
  · have hs := State.atBoundary_iff.1 hu
    obtain ⟨hhalted, hrf⟩ := ha
    exact .inl ⟨hhalted, hrf, hs ▸ step_of_asleep (hs ▸ State.isAsleep_iff.2 ⟨hhalted, hrf⟩)⟩
  by_cases hdue : u.ie = true ∧ u.rf ≠ 0#8
  · exact .inr (.inl (step_of_interruptDue hu hdue.1 hdue.2))
  · exact .inr (.inr (step_of_not_interruptDue hu ha hdue))

end Sys2Proof.Machine
end

section
/-! The statements of 30_encoding.md. -/

namespace Sys2Proof.Machine

/-- Settles O1: the encoding is as long as its first byte says, and the decoder reads its fields back. -/
theorem decodeInvertsEncode : Obligations.DecodeInvertsEncode := fun _ rest hwf => decode_encode hwf rest

/-- Settles O2: the decoded instruction encodes to the first of the bytes, as many as the first one asks for. -/
theorem encodeInvertsDecode : Obligations.EncodeInvertsDecode := fun _ _ _ h => encode_of_decode h

/-- Settles O3: by `decodeBytes_length` and the ranges of `lengthOf`. -/
theorem firstByteDecidesLength : Obligations.FirstByteDecidesLength := by
  intro b0 b1 b2 n len
  have hlen : len = lengthOf b0 := decodeBytes_length b0 b1 b2
  rw [hlen, lengthOf]
  refine ⟨fun hthree => ?_, fun htwo => ?_, fun _ _ hone => ?_⟩ <;> split_ifs <;> omega

/-- Settles O4: `decodeBytes_eq_headInstr` with the length known. -/
theorem bytesPastTheLengthAreNotRead : Obligations.BytesPastTheLengthAreNotRead := by
  intro b0 b1 b2 c1 c2
  rw [decodeBytes_length]
  refine ⟨fun hone => ?_, fun htwo => ?_⟩
  · rw [decodeBytes_eq_headInstr, decodeBytes_eq_headInstr b0 b1 b2, hone]; rfl
  · rw [decodeBytes_eq_headInstr, decodeBytes_eq_headInstr b0 b1 b2, htwo]; rfl

/-- Settles O6: formats N, R and RR. -/
theorem oneByteFormatsDecode : Obligations.OneByteFormatsDecode := by
  intro r m l rest reads n ml
  iterate 8 refine ⟨decode_of_encode_one rfl rfl, ?_⟩
  iterate 13 refine ⟨decode_of_encode_one (encR_eq_ofNat rfl r) rfl, ?_⟩
  iterate 5 refine ⟨decode_of_encode_one (encRR_eq_ofNat rfl m l) rfl, ?_⟩
  exact decode_of_encode_one (encRR_eq_ofNat rfl m l) rfl

/-- Settles O7: formats A2R, A2I, I8, M3, X4 and X2. -/
theorem twoByteFormatsDecode : Obligations.TwoByteFormatsDecode := by
  intro m k l v4 v2 v5 v8 z c sg rest reads ml imm x4 x2
  refine ⟨?register, fun hv => ?immediate, ?i8, ?m3, ?ldi, ?sti, ?lri, ?sri⟩
  case register =>
    iterate 7 refine ⟨decode_of_encode_two (encA2R_eq_ofNat ..) rfl, ?_⟩
    exact decode_of_encode_two (encA2R_eq_ofNat ..) rfl
  case immediate =>
    have hwf : (v4 != 0#4) = true := bne_iff_ne.2 hv
    iterate 7 refine ⟨decode_of_encode_two (encA2I_eq_ofNat ..) hwf, ?_⟩
    exact decode_of_encode_two (encA2I_eq_ofNat ..) hwf
  case i8 =>
    iterate 7 refine ⟨decode_of_encode_two (encI8_eq_ofNat ..) rfl, ?_⟩
    exact decode_of_encode_two (encI8_eq_ofNat ..) rfl
  case m3 => exact decode_of_encode_two (encM3_eq_ofNat ..) rfl
  case ldi => exact decode_of_encode_two (encX4_eq_ofNat ..) rfl
  case sti => exact decode_of_encode_two (encX4_eq_ofNat ..) rfl
  case lri => exact decode_of_encode_two (encX2_eq_ofNat ..) rfl
  case sri => exact decode_of_encode_two (encX2_eq_ofNat ..) rfl

/-- Settles O8: formats A16 and RI16. -/
theorem threeByteFormatsDecode : Obligations.ThreeByteFormatsDecode := by
  intro r b1 b2 rest reads operand
  iterate 3 refine ⟨decode_of_encode_three (encA16_ofNat ..) rfl, ?_⟩
  exact decode_of_encode_three (encRI16_ofNat rfl ..) rfl

/-- Settles O9: the masks keep every field the decoder reads but the ignored one, which no meaning looks at. -/
theorem ignoredBitsHaveNoEffect : Obligations.IgnoredBitsHaveNoEffect := by
  intro b0 b1 b2 s
  refine ⟨fun htwo himm => ?_, fun hcli => ?_, fun hcall => ?_, fun htwo => ?_⟩
  · obtain ⟨r, i, hform⟩ := TwoForm.of_twoFormByte htwo
    have hfield : field b1 4 4 ≠ 0#4 := mt (field_form_eq_zero_iff b1).1 himm
    have hmask : field (b1 &&& 0xFC#8) 4 4 = field b1 4 4 := field_and_of_ones (by decide) b1
    have hreg : regField (b1 &&& 0xFC#8) 2 = regField b1 2 := regField_and_of_ones (by decide) b1
    rw [hform.decodeBytes_eq, hform.decodeBytes_eq, twoForm_of_immediate hfield,
      twoForm_of_immediate (by rwa [hmask]), hmask, hreg]
    exact hform.exec_immediate ..
  · have hbit (k : Nat) (hk : (0xE0#8).getLsbD k = true) : (b1 &&& 0xE0#8).getLsbD k = b1.getLsbD k := by
      rw [BitVec.getLsbD_and, hk, Bool.and_true]
    subst hcli
    rw [exec_cliBytes, exec_cliBytes, hbit 7 rfl, hbit 6 rfl, hbit 5 rfl]
  · have hreg : regField (b1 &&& 0x3F#8) 4 = regField b1 4 := regField_and_of_ones (by decide) b1
    have hoff : operand12 (b1 &&& 0x3F#8) b2 = operand12 b1 b2 := by
      rw [operand12, field_and_of_ones (by decide), ← operand12]
    rcases hcall with rfl | rfl
    · rw [exec_carBytes, exec_carBytes, hreg, hoff]
    · rw [exec_rcrBytes, exec_rcrBytes, hreg, hoff]
  · obtain ⟨r, i, hform⟩ := TwoForm.of_twoFormByte htwo
    rw [hform.decodeBytes_eq, ← field_form_eq_zero_iff]
    by_cases hfield : field b1 4 4 = 0#4
    · rw [twoForm_of_register hfield]; exact iff_of_true (hform.isRegisterForm_register ..) hfield
    · rw [twoForm_of_immediate hfield, hform.isRegisterForm_immediate]; exact iff_of_false Bool.noConfusion hfield

/-- Settles O18: the row of the first byte, and the rows one by one. -/
theorem reservedAndUnlistedBytesFault : Obligations.ReservedAndUnlistedBytesFault := by
  intro s
  refine ⟨fun b0 b1 b2 => ⟨fun h => ?_, fun h => ?_⟩, fun l1 l2 l3 l4 => ⟨?_, ?_⟩⟩
  · rw [exec_eq_fault_iff, rowFault_decodeBytes, byteFault_eq_reserved, h]
  · rw [exec_eq_fault_iff, rowFault_decodeBytes, byteFault_eq_unlisted, h]
  · simp [exec_eq_fault_iff, rowFault]
  · simp [exec_eq_fault_iff, rowFault]

/-- Settles O17: by the kind of step; a fetched instruction stops as `fetchAndExecute_refusedAt` and
`fetchAndExecute_fault` say. -/
theorem stepStopsOnlyOnNamedGrounds : Obligations.StepStopsOnlyOnNamedGrounds := by
  intro s u hu
  rcases step_cases hu with ⟨hhalted, hrf, hstep⟩ | hstep | hstep <;> rw [hstep]
  · refine ⟨fun why h => ?_, fun f h => ?_⟩ <;> split at h
    · cases h
    · cases h
    · next hevents =>
      cases h
      have hevents : s.events = [] := List.isEmpty_iff.1 hevents
      have hus : u = s := by rw [State.atBoundary_iff.1 hu, State.environmentActs, hevents]
      exact .inl ⟨rfl, hus ▸ hhalted, hus ▸ hrf, hevents⟩
    · cases h
  · exact ⟨nofun, nofun⟩
  · refine ⟨fun why h => ?_, fun f h => ?_⟩
    · have hrefused := State.fetchAndExecute_refusedAt h
      rw [reads_wake, writes_wake] at hrefused
      exact ⟨hrefused.memMap_ne_nil, hrefused⟩
    · have hbyte : byteFault (u.byteAt u.pc) = some f := State.fetchAndExecute_fault (s := u.wake) h
      cases f with
      | reservedOpcode => exact .inr (.inl ⟨rfl, (byteFault_eq_reserved _).1 hbyte⟩)
      | unlistedOpcode => exact .inr (.inr ⟨rfl, (byteFault_eq_unlisted _).1 hbyte⟩)
      | asleep => exact absurd hbyte (byteFault_ne_asleep _)

end Sys2Proof.Machine
end

section
/-! SUPPORT. The control instructions by their equations, and the boundary after an instruction that clears RF
(40_control.md R130 to R137; 60_exceptions.md R304, R305, R308). -/

namespace Sys2Proof.Machine

/-! ## RS and RF as bytes -/

/-- Bits 7:5 of a byte have no part in bits 4:0 (10_state.md R28, R32). -/
theorem and_high_and_low (v : Byte) : (v &&& 0xE0#8) &&& 0x1F#8 = 0#8 := by
  rw [BitVec.and_assoc]; exact BitVec.and_zero

/-- Writing RS as a whole stores bits 7:5 of the value (10_state.md R28). -/
theorem rsByte_eq_and_high (v : Byte) : rsByte (v.getLsbD 7) (v.getLsbD 6) (v.getLsbD 5) = v &&& 0xE0#8 := by
  have hhigh := rsByte_of_low_zero (and_high_and_low v)
  simpa using hhigh

/-- A byte with bits 4:0 zero is its bits 7:5. -/
theorem and_high_of_low_zero {v : Byte} (h : v &&& 0x1F#8 = 0#8) : v &&& 0xE0#8 = v := by
  rw [← rsByte_eq_and_high, rsByte_of_low_zero h]

theorem State.flagsAre_of_rs {t : State} {z c g : Bool} (h : t.rs = rsByte z c g) : t.flagsAre z c g := by
  rw [State.flagsAre, h]
  exact ⟨rsByte_z z c g, rsByte_c z c g, rsByte_s z c g, rsByte_low z c g⟩

/-! ## Equations -/

/-- INT is interrupt entry with the address after it (40_control.md R131; 60_exceptions.md R307). -/
theorem exec_int (s : State) : exec .int s = .next (s.entered (s.pc + 1#16)) := rfl

theorem exec_eni (s : State) : exec .eni s = .next { s with ie := true, rf := 0#8, pc := s.pc + 1#16 } := rfl

theorem exec_rst (s : State) : exec .rst s = .next s.resetSequence := rfl

theorem exec_cmp (s : State) : exec .cmp s = .next ((s.setZ (s.ax == s.bx)).advance 1) := rfl

/-- RET takes all it writes from IS, but RF, which it clears, and bits 4:0 of RS (60_exceptions.md R308; log 19). -/
theorem exec_ret (s : State) :
    exec .ret s = .next
      { s with
        ax := s.intState.ax, bx := s.intState.bx, cx := s.intState.cx, sp := s.intState.sp,
        rs := s.intState.rs &&& 0xE0#8, ie := s.intState.ie, rf := 0#8, pc := s.intState.pc } := by
  rw [← rsByte_eq_and_high]; rfl

/-! ## The boundary after RF was cleared -/

/-- With RF at 0x00 and nothing raised no interrupt is due, so an awake core goes on (60_exceptions.md R304; log 8). -/
theorem step_executesNext_of_rf_clear {t u : State} (hawake : t.halted = false) (hclear : t.rf = 0#8)
    (hu : t.atBoundary u) (hsilent : u.rf = t.rf) : u.ExecutesNext (step t) := by
  have hhalted : u.halted = false := by rw [State.eq_of_atBoundary hu]; exact hawake
  exact step_executesNext_of_awake hu hhalted fun ⟨_, hpending⟩ => hpending (hsilent.trans hclear)

end Sys2Proof.Machine
end

section
/-! The statements of 40_control.md. -/

namespace Sys2Proof.Machine

/-- Settles O33: the state after RET by `exec_ret`, the boundary by the RF it clears. -/
theorem retRestoresFromIntState : Obligations.RetRestoresFromIntState := by
  intro s
  refine ⟨_, exec_ret s, rfl, rfl, rfl, rfl, rfl, rfl, rfl, rfl, rfl, fun _ => rfl, rfl, rfl, rfl, rfl, ?_⟩
  exact fun hawake u => step_executesNext_of_rf_clear hawake rfl

/-- Settles O34: RET takes from IS what INT put there; of RS it takes bits 7:5, all that is set under the
invariant. -/
theorem retAfterIntRestoresProgram : Obligations.RetAfterIntRestoresProgram := by
  intro s t u v hint hkept hret
  rw [exec_int] at hint
  cases hint
  rw [exec_ret, hkept] at hret
  cases hret
  refine ⟨fun r => ?_, rfl, rfl, rfl, fun ⟨hlow, _⟩ => and_high_of_low_zero hlow, fun _ => rfl⟩
  cases r <;> rfl

/-- Settles O27: the byte by `decode_of_encode_one`. -/
theorem nopOnlyAdvances : Obligations.NopOnlyAdvances := ⟨decode_of_encode_one rfl rfl, fun _ => rfl⟩

/-- Settles O28: INT is interrupt entry, which leaves RF and RS and saves IE. -/
theorem intEntersHandler : Obligations.IntEntersHandler := fun s => ⟨exec_int s, rfl, rfl, rfl⟩

/-- Settles O29: the boundary after ENI by the RF it clears. -/
theorem eniSetsIeAndDeiClearsIt : Obligations.EniSetsIeAndDeiClearsIt := by
  refine ⟨decode_of_encode_one rfl rfl, decode_of_encode_one rfl rfl, fun s => ⟨exec_eni s, rfl, ?_⟩⟩
  intro t u heni hawake
  rw [exec_eni] at heni
  cases heni
  exact step_executesNext_of_rf_clear hawake rfl

/-- Settles O30: the equation of HLT. -/
theorem hltSleepsWithRfCleared : Obligations.HltSleepsWithRfCleared := fun _ => rfl

/-- Settles O31: RS is three drawn flags over zeros, and RF a drawn byte confined to bits 7:5. -/
theorem rstResetsAndKeepsMemory : Obligations.RstResetsAndKeepsMemory := fun s =>
  ⟨_, exec_rst s, rfl, rfl, rfl, rsByte_low .., and_high_and_low _, s.resetSequence_byteAt, rfl, rfl⟩

/-- Settles O32: Z is the comparison as numbers, and the frame is that of every instruction outside `ControlInstr`. -/
theorem cmpTellsEqualityOnly : Obligations.CmpTellsEqualityOnly := by
  intro s
  have hequal : (s.ax == s.bx) = decide (s.ax.toNat = s.bx.toNat) := by
    rw [beq_eq_decide, decide_eq_decide]; exact BitVec.toNat_inj.symm
  have hstep : OrdinaryStep .cmp s ((s.setZ (s.ax == s.bx)).advance 1) := exec_ordinaryStep nofun (exec_cmp s)
  exact ⟨_, exec_cmp s, hequal ▸ State.flagsAre_of_rs rfl, rfl, hstep.frame⟩

end Sys2Proof.Machine
end

section
/-! SUPPORT. The outcome of an instruction that accesses memory, once it is known to be a next state (log 17). -/

namespace Sys2Proof.Machine

/-- Where a step answered a next state, no access was refused, and what holds of every completion holds of that state. -/
theorem State.Accesses.of_eq_next {s t : State} {reads writes : List Word} {o : Host.Outcome State Fault Refusal}
    {P : State → Prop} (h : s.Accesses reads writes o P) (ho : o = .next t) : P t := by
  subst ho
  rcases h.completes_or_refusedAt with ⟨u, hu, hP⟩ | ⟨a, ⟨-, -, hrefused⟩ | ⟨-, -, hrefused⟩⟩
  · cases hu; exact hP
  · cases hrefused
  · cases hrefused

end Sys2Proof.Machine
end

section
/-! The statements of 41_stack_and_jumps.md. -/

namespace Sys2Proof.Machine

/-- Settles O35: the stored word and SP by `State.push16_spec`, the refusal by `State.writing_spec`, the frame by the
shape of a push. -/
theorem pusStoresThenDecrementsSp : Obligations.PusStoresThenDecrementsSp := by
  intro r s
  obtain ⟨hsp, hword, -⟩ := s.push16_spec (s.reg r)
  have hstep : OrdinaryStep (.pus r) s ((s.push16 (s.reg r)).advance 1) := .push rfl rfl
  exact State.writing_spec ⟨hword, hsp, rfl, rfl, hstep.frame⟩

/-- Settles O36: the register is written after SP went up, so that SP keeps its new value unless it is the register. -/
theorem popIncrementsSpThenLoads : Obligations.PopIncrementsSpThenLoads := by
  intro r s
  obtain ⟨hsp, htop, -⟩ := s.popSp_topOfStack
  have hstep : OrdinaryStep (.pop r) s ((s.popSp.setReg r s.popSp.topOfStack).advance 1) := .pop rfl
  refine State.reading_spec ⟨?word, fun hr => ?sp, ?pc, ?rs, hstep.frame⟩
  case word =>
    rw [State.advance_reg, State.setReg_reg_same, htop, State.read16, BitVec.add_assoc]
    rfl
  case sp =>
    rw [← State.reg_sp, State.advance_reg, State.setReg_reg_ne hr.symm, State.reg_sp, hsp]
  case pc => simp [State.npc]
  case rs => simp

/-- Settles O37: POP finds SP where PUS left it, two below the word it stored. -/
theorem popAfterPusRestores : Obligations.PopAfterPusRestores := by
  intro r s t u hpus hpop q
  obtain ⟨hstored, hdown, -, -, hkeptPus, -⟩ := (pusStoresThenDecrementsSp r s).of_eq_next hpus
  obtain ⟨hloaded, hup, -, -, hkeptPop, -⟩ := (popIncrementsSpThenLoads r t).of_eq_next hpop
  have hfirst : t.sp + 2#16 = s.sp := by rw [hdown, BitVec.sub_add_cancel]
  have hsecond : t.sp + 3#16 = s.sp + 1#16 := by rw [← hfirst, BitVec.add_assoc]; rfl
  by_cases hqr : q = r
  · rw [hqr, hloaded, hfirst, hsecond, hstored]
  by_cases hqsp : q = .sp
  · subst hqsp
    exact (hup (Ne.symm hqr)).trans hfirst
  · rw [hkeptPop q (by simp [hqr, hqsp]), hkeptPus q (by simp [hqsp])]

/-- Settles O38: the bytes are LJP's encoding. -/
theorem ljpGoesToItsOperand : Obligations.LjpGoesToItsOperand := fun _ _ => ⟨decode_of_encode_three rfl rfl, rfl⟩

/-- Settles O39: all seven are the register jump of R153, each under its own flag. -/
theorem registerJumpsGoToNpcPlusRegister : Obligations.RegisterJumpsGoToNpcPlusRegister := by
  intro r s go
  have hjump (c : Bool) : Host.Outcome.next (s.jumpRegIf c r) = go c := congrArg _ (s.jumpRegIf_spec c r)
  exact ⟨hjump true, hjump s.flagZ, hjump !s.flagZ, hjump s.flagS, hjump !s.flagS, hjump s.flagC, hjump !s.flagC⟩

end Sys2Proof.Machine
end

section
/-! SUPPORT. A register write, a load and a store with the advance, by the number of bytes of the instruction
(42_move_load_store.md R170 to R172; 48_indexed_memory.md R260 to R263). -/

namespace Sys2Proof.Machine

/-! ## Addresses -/

/-- The sum of LDI and STI: imm4 is zero-extended (30_encoding.md R104). -/
theorem State.eaImm4_eq (s : State) (base : Reg) (imm : BitVec 4) :
    s.eaImm4 base imm = s.reg base + BitVec.ofNat 16 imm.toNat := by
  rw [State.eaImm4, imm4Word_eq]

/-- The sum of LRI and SRI: imm2 is zero-extended (R104). -/
theorem State.eaImm2_eq (s : State) (base index : Reg) (imm : BitVec 2) :
    s.eaImm2 base index imm = s.reg base + s.reg index + BitVec.ofNat 16 imm.toNat := by
  rw [State.eaImm2, imm2Word_eq]

/-! ## Shapes -/

section Shapes

variable (s : State) (r : Reg) (ea : Word) (n : Nat)

/-- A register write: the destination, the advance, and nothing else. -/
theorem State.setReg_advance_spec (v : Word) :
    ((s.setReg r v).advance n).reg r = v ∧ ((s.setReg r v).advance n).pc = s.npc n ∧
    ((s.setReg r v).advance n).rs = s.rs ∧ s.frame ((s.setReg r v).advance n) [r] [] := by
  have hstep : OrdinaryStep (.mvi r v) s ((s.setReg r v).advance n) := .setReg rfl
  exact ⟨by simp, by simp [State.npc], by simp, hstep.frame⟩

/-- A load as a step: the word at `ea`, or a refusal at one of its bytes (log 17). -/
theorem State.load_accesses :
    s.Accesses (wordAt ea) [] (s.reading ea (s.load r ea n)) fun t =>
      t.reg r = s.byteAt ea ++ s.byteAt (ea + 1#16) ∧ t.pc = s.pc + BitVec.ofNat 16 n ∧ t.rs = s.rs ∧
      s.frame t [r] [] :=
  State.reading_spec (s.load_spec r ea n)

/-- A store as a step: the two bytes at `ea`, or a refusal at one of them (log 17). -/
theorem State.store_accesses :
    s.Accesses [] (wordAt ea) (s.writing ea (s.store ea r n)) fun t =>
      t.byteAt ea = (s.reg r).extractLsb' 8 8 ∧ t.byteAt (ea + 1#16) = (s.reg r).extractLsb' 0 8 ∧
      t.pc = s.pc + BitVec.ofNat 16 n ∧ t.rs = s.rs ∧ s.frame t [] (wordAt ea) := by
  obtain ⟨-, hpc, hrs, hframe⟩ := s.store_spec ea r n
  refine State.writing_spec ⟨?high, ?low, hpc, hrs, hframe⟩
  case high => rw [State.byteAt_store, if_neg (word_succ_ne ea).symm, if_pos rfl]
  case low => rw [State.byteAt_store, if_pos rfl]

end Shapes

end Sys2Proof.Machine
end

section
/-! The statements of 42_move_load_store.md. -/

namespace Sys2Proof.Machine

/-- Settles O41: the three loads are one shape, each at its own address. -/
theorem loadsReadTwoBytesBigEndian : Obligations.LoadsReadTwoBytesBigEndian := by
  intro rM rMid rL imm4 imm2 s loaded loads
  refine ⟨s.load_accesses rM (s.reg rL) 1, ?ldi, ?lri⟩
  case ldi => rw [← s.eaImm4_eq]; exact s.load_accesses rM (s.eaImm4 rL imm4) 2
  case lri => rw [← s.eaImm2_eq]; exact s.load_accesses rM (s.eaImm2 rL rMid imm2) 2

/-- Settles O42: the three stores are one shape, each at its own address. -/
theorem storesWriteTwoBytesBigEndian : Obligations.StoresWriteTwoBytesBigEndian := by
  intro rM rMid rL imm4 imm2 s stored stores
  exact ⟨s.store_accesses rL (s.reg rM) 1,
    s.store_accesses rL (s.eaImm4 rM imm4) 2, s.eaImm4_eq rM imm4,
    s.store_accesses rL (s.eaImm2 rMid rM imm2) 2, s.eaImm2_eq rMid rM imm2⟩

/-- Settles O40: both are a register write with the advance. -/
theorem movAndMviWriteOneRegister : Obligations.MovAndMviWriteOneRegister := by
  intro rM rL imm16 s
  exact ⟨⟨_, rfl, s.setReg_advance_spec rM 1 (s.reg rL)⟩, ⟨_, rfl, s.setReg_advance_spec rM 3 imm16⟩⟩

end Sys2Proof.Machine
end

section
/-! SUPPORT. The result of NEG as a number, and the step that all five bitwise instructions are
(43_bitwise.md R180 to R185). -/

namespace Sys2Proof.Machine

theorem negResult_eq_neg (a : Word) : negResult a = -a := by
  rw [negResult, zero_sub, BitVec.ofInt_neg, BitVec.ofInt_natCast, BitVec.ofNat_toNat, BitVec.setWidth_eq]

/-- NEG subtracts from 0 modulo 2^16 (R180). -/
theorem negResult_toNat (a : Word) : (negResult a).toNat = (65536 - a.toNat) % 65536 := by
  rw [negResult_eq_neg, BitVec.toNat_neg]

/-- A bitwise instruction whose result has the property `result`: Z and S are those of the result, C is kept, and nothing
else changes but PC (R185). -/
theorem State.writeLogic_completes (s : State) (d : Reg) (result : Word → Prop) {v : Word} (hv : result v) :
    Completes (.next (s.writeLogic d v 1)) fun t =>
      result (t.reg d) ∧ t.flagsOf (t.reg d).toNat (s.rs.getLsbD 6) ∧ t.pc = s.pc + 1#16 ∧ s.frame t [d] [] := by
  obtain ⟨hreg, hflags, hpc, hframe⟩ := s.writeLogic_spec d v 1
  exact ⟨_, rfl, hreg.symm ▸ hv, hreg.symm ▸ hflags, hpc, hframe⟩

end Sys2Proof.Machine
end

section
/-! The statements of 43_bitwise.md. -/

namespace Sys2Proof.Machine

/-- Settles O45: both write a bitwise result, the two's and the one's complement. -/
theorem negAndNotResultsAndFlags : Obligations.NegAndNotResultsAndFlags := by
  intro r s
  exact ⟨s.writeLogic_completes r (fun v => v.toNat = (65536 - (s.reg r).toNat) % 65536) (negResult_toNat _),
    s.writeLogic_completes r (fun v => v.toNat = 65535 - (s.reg r).toNat) BitVec.toNat_not⟩

/-- Settles O46: the three are one step, each with the bits of its own result. -/
theorem andIorXorResultsAndFlags : Obligations.AndIorXorResultsAndFlags := by
  intro rM rL s done
  have hdone (op : Bool → Bool → Bool) {v : Word}
      (hbits : ∀ k, v.getLsbD k = op ((s.reg rM).getLsbD k) ((s.reg rL).getLsbD k)) :
      Completes (.next (s.writeLogic rM v 1)) (done op) :=
    s.writeLogic_completes rM
      (fun w => ∀ k, k < 16 → w.getLsbD k = op ((s.reg rM).getLsbD k) ((s.reg rL).getLsbD k)) fun k _ => hbits k
  exact ⟨hdone Bool.and fun _ => BitVec.getLsbD_and, hdone Bool.or fun _ => BitVec.getLsbD_or,
    hdone Bool.xor fun _ => BitVec.getLsbD_xor⟩

end Sys2Proof.Machine
end

section
/-! SUPPORT. The arithmetic results and conditions as numbers, and the step that every arithmetic instruction is
(44_arithmetic.md R190 to R196). -/

namespace Sys2Proof.Machine

/-! ## Results and conditions as numbers -/

section Numbers

variable (a b : Word)

theorem addResult_toNat : (addResult a b).toNat = (a.toNat + b.toNat) % 65536 := BitVec.toNat_ofNat ..

/-- Two words sum to less than 2^17, so bit 16 of the sum is set exactly when the sum reaches 2^16 (R191). -/
theorem addCarry_eq_decide : addCarry a b = decide (65536 ≤ a.toNat + b.toNat) := by
  rw [addCarry, Nat.testBit_eq_decide_div_mod_eq, decide_eq_decide]
  omega

/-- The difference modulo 2^16, with 2^16 added so that it is one of natural numbers (R192). -/
theorem subResult_toNat : (subResult a b).toNat = (65536 + a.toNat - b.toNat) % 65536 := by
  rw [subResult, BitVec.toNat_ofInt]
  omega

theorem mulResult_toNat : (mulResult a b).toNat = a.toNat * b.toNat % 65536 := BitVec.toNat_ofNat ..

/-- Bits 31:16 of the product are not all 0 exactly when the product reaches 2^16 (R193). -/
theorem mulOverflow_eq_decide : mulOverflow a b = decide (65536 ≤ a.toNat * b.toNat) := by
  rw [mulOverflow, Bool.eq_iff_iff, bne_iff_ne, decide_eq_true_iff]
  omega

/-- A quotient is at most its dividend, so it fits 16 bits (R194). -/
theorem divResult_toNat : (divResult a b).toNat = a.toNat / b.toNat := by
  rw [divResult, BitVec.toNat_ofNat, Nat.mod_eq_of_lt (Nat.div_lt_of_lt a.isLt)]

end Numbers

/-- Zero-extension keeps a divisor from becoming 0 (30_encoding.md R104). -/
theorem imm4Word_ne_zero {v : BitVec 4} (h : v ≠ 0#4) : imm4Word v ≠ 0#16 := fun hzero =>
  h (BitVec.eq_of_toNat_eq (by rw [← imm4Word_toNat, hzero]; rfl))

/-! ## Steps -/

/-- An arithmetic instruction whose result is the number `n` and whose condition is `c'`: Z and S are those of `n`,
C is `c'`, and nothing else changes but PC (R191 to R195). -/
theorem State.writeArith_completes (s : State) (d : Reg) (len : Nat) {v : Word} {c c' : Bool} {n : Nat}
    (hv : v.toNat = n) (hc : c = c') :
    Completes (.next (s.writeArith d v c len)) fun t =>
      (t.reg d).toNat = n ∧ t.flagsOf n c' ∧ t.pc = s.pc + BitVec.ofNat 16 len ∧ s.frame t [d] [] := by
  subst hv hc
  obtain ⟨hreg, hflags, hpc, hframe⟩ := s.writeArith_spec d v c len
  exact ⟨_, rfl, congrArg BitVec.toNat hreg, hflags, hpc, hframe⟩

theorem State.divide_of_ne_zero (s : State) (d : Reg) (a : Word) {b : Word} (hb : b ≠ 0#16) :
    s.divide d a b = s.writeArith d (divResult a b) false 2 := if_neg hb

end Sys2Proof.Machine
end

section
/-! The statements of 44_arithmetic.md. In each, `hdone` is the step with any word as the second operand: a register's
for the register form, the zero-extended imm4 for the immediate form. -/

namespace Sys2Proof.Machine

/-- Settles O47: an arithmetic result, with the sum and its carry as numbers. -/
theorem addResultAndFlags : Obligations.AddResultAndFlags := by
  intro s done
  have hdone (d : Reg) (b : Word) :
      Completes (.next (s.writeArith d (addResult (s.reg d) b) (addCarry (s.reg d) b) 2)) (done d b.toNat) :=
    s.writeArith_completes d 2 (addResult_toNat (s.reg d) b) (addCarry_eq_decide (s.reg d) b)
  exact ⟨fun rM rL => hdone rM (s.reg rL), fun imm4 r _ => imm4Word_toNat imm4 ▸ hdone r (imm4Word imm4)⟩

/-- Settles O48: an arithmetic result, with the difference as a number; the borrow is the model's own comparison. -/
theorem subResultAndFlags : Obligations.SubResultAndFlags := by
  intro s done
  have hdone (d : Reg) (b : Word) :
      Completes (.next (s.writeArith d (subResult (s.reg d) b) (subBorrow (s.reg d) b) 2)) (done d b.toNat) :=
    s.writeArith_completes d 2 (subResult_toNat (s.reg d) b) rfl
  exact ⟨fun rM rL => hdone rM (s.reg rL), fun imm4 r _ => imm4Word_toNat imm4 ▸ hdone r (imm4Word imm4)⟩

/-- Settles O49: an arithmetic result, with the low half of the product and its overflow as numbers. -/
theorem mulResultAndFlags : Obligations.MulResultAndFlags := by
  intro s done
  have hdone (d : Reg) (b : Word) :
      Completes (.next (s.writeArith d (mulResult (s.reg d) b) (mulOverflow (s.reg d) b) 2)) (done d b.toNat) :=
    s.writeArith_completes d 2 (mulResult_toNat (s.reg d) b) (mulOverflow_eq_decide (s.reg d) b)
  exact ⟨fun rM rL => hdone rM (s.reg rL), fun imm4 r _ => imm4Word_toNat imm4 ▸ hdone r (imm4Word imm4)⟩

/-- Settles O50: with a divisor that is not 0 a division is an arithmetic result, with the quotient as a number. -/
theorem divResultAndFlags : Obligations.DivResultAndFlags := by
  intro s done
  have hdone (d : Reg) {b : Word} (hb : b ≠ 0#16) :
      Completes (.next (s.divide d (s.reg d) b)) (done d b.toNat) := by
    rw [s.divide_of_ne_zero d (s.reg d) hb]
    exact s.writeArith_completes d 2 (divResult_toNat (s.reg d) b) rfl
  exact ⟨fun rM _ hb => hdone rM hb, fun imm4 r _ hb => imm4Word_toNat imm4 ▸ hdone r (imm4Word_ne_zero hb)⟩

/-- Settles O51: the parameter DIV0 gives the destination and the flags, by `State.divide_zero_spec`. -/
theorem divByZeroLeavesDiv0AndGoesOn : Obligations.DivByZeroLeavesDiv0AndGoesOn := by
  intro rM rL s hzero
  have hstep : exec (.divR rM rL) s = .next (s.divide rM (s.reg rM) 0#16) := by
    rw [← hzero]; rfl
  exact ⟨_, hstep, s.divide_zero_spec rM (s.reg rM)⟩

end Sys2Proof.Machine
end

section
/-! SUPPORT. What a call leaves on the stack, and what a return needs of it, whatever the callee did in between
(45_subroutine.md R210 to R214). -/

namespace Sys2Proof.Machine

/-! ## Calls and returns as steps -/

/-- The sum of CAR and RCR: off12 is zero-extended (30_encoding.md R104). -/
theorem State.eaOff12_eq (s : State) (r : Reg) (off : BitVec 12) :
    s.eaOff12 r off = s.reg r + BitVec.ofNat 16 off.toNat := by
  rw [State.eaOff12, off12Word_eq]

/-- The second push of a call, at SP - 2, leaves the return address that the first one put at SP (R210). -/
theorem State.call_read16_sp (s : State) (target : Word) : (s.call target).read16 s.sp = s.pc + 3#16 := by
  obtain ⟨-, -, hbyte⟩ := s.call_spec target
  have hhigh : s.sp ∉ [s.sp - 2#16, s.sp - 2#16 + 1#16] := by
    simp only [List.mem_cons, List.not_mem_nil, or_false]; bv_omega
  have hlow : s.sp + 1#16 ∉ [s.sp - 2#16, s.sp - 2#16 + 1#16] := by
    simp only [List.mem_cons, List.not_mem_nil, or_false]; bv_omega
  rw [State.read16, hbyte, hbyte, State.byteAt_write16_outside _ hhigh, State.byteAt_write16_outside _ hlow]
  exact s.read16_write16 s.sp (s.npc 3)

/-- The second push is of SP as the first one left it (R210). -/
theorem State.call_read16_below (s : State) (target : Word) :
    (s.call target).read16 (s.sp - 2#16) = s.sp - 2#16 := by
  obtain ⟨-, -, hbyte⟩ := s.call_spec target
  rw [State.read16, hbyte, hbyte]
  exact (s.write16 s.sp (s.npc 3)).read16_write16 (s.sp - 2#16) (s.sp - 2#16)

theorem word_below_succ (a : Word) : a - 2#16 + 1#16 = a - 1#16 := by bv_omega

/-- A call to any target as a step: the two words on the stack and nothing else but SP and PC, or a refusal at one of
the four bytes (R210; log 17). -/
theorem State.calling_accesses (s : State) (target : Word) :
    s.Accesses [] (wordAt s.sp ++ wordAt (s.sp - 2#16)) (s.calling target) fun t =>
      t.byteAt s.sp ++ t.byteAt (s.sp + 1#16) = s.pc + 3#16 ∧
      t.byteAt (s.sp - 2#16) ++ t.byteAt (s.sp - 1#16) = s.sp - 2#16 ∧
      t.sp = s.sp - 4#16 ∧ t.pc = target ∧ t.rs = s.rs ∧
      s.frame t [.sp] (wordAt s.sp ++ wordAt (s.sp - 2#16)) := by
  obtain ⟨hpc, hsp, -⟩ := s.call_spec target
  obtain ⟨hframe, hrs⟩ := s.call_frame target
  refine State.calling_spec ⟨s.call_read16_sp target, ?below, ?sp, hpc, hrs, hframe⟩
  case below => rw [← word_below_succ]; exact s.call_read16_below target
  case sp => rw [hsp]; bv_omega

/-- A return to any stack address as a step: SP and PC from above it, or a refusal at one of the two bytes
(R211; log 17). -/
theorem State.returning_accesses (s : State) (addr : Word) :
    s.Accesses (wordAt (addr + 2#16)) [] (s.returning addr) fun t =>
      t.sp = addr + 2#16 ∧ t.pc = s.byteAt (addr + 2#16) ++ s.byteAt (addr + 3#16) ∧ t.rs = s.rs ∧
      s.frame t [.sp] [] := by
  obtain ⟨hsp, hpc, -⟩ := s.returnFrom_spec addr
  obtain ⟨hframe, hrs⟩ := s.returnFrom_frame addr
  refine State.reading_spec ⟨hsp, ?pc, hrs, hframe⟩
  rw [hpc, State.read16, BitVec.add_assoc]; rfl

/-- Where a step answered a next state, no byte read was a device's and every byte written was RAM. -/
theorem State.Accesses.kinds_of_eq_next {s t : State} {reads writes : List Word}
    {o : Host.Outcome State Fault Refusal} {P : State → Prop} (h : s.Accesses reads writes o P) (ho : o = .next t) :
    (∀ a ∈ reads, s.kindAt a ≠ .device) ∧ ∀ a ∈ writes, s.kindAt a = .ram := by
  subst ho
  obtain ⟨-, hrefused⟩ := h
  have hne : ¬s.RefusedAt reads writes (.next t) := by
    rintro ⟨a, ⟨-, -, hr⟩ | ⟨-, -, hr⟩⟩ <;> cases hr
  exact ⟨fun a ha hd => hne (hrefused (.inl ⟨a, ha, hd⟩)),
    fun a ha => by_contra fun hd => hne (hrefused (.inr ⟨a, ha, hd⟩))⟩

/-- An instruction stays on its platform (log 17). -/
theorem State.frame.platform_eq {s t : State} {regs : List Reg} {bytes : List Word} (h : s.frame t regs bytes) :
    t.platform = s.platform := by
  obtain ⟨-, -, -, -, -, -, -, -, hplatform⟩ := h
  exact hplatform

theorem State.frame.byteAt_eq {s t : State} {regs : List Reg} {bytes : List Word} (h : s.frame t regs bytes)
    {a : Word} (ha : a ∉ bytes) : t.byteAt a = s.byteAt a := by
  obtain ⟨-, hbyte, -⟩ := h
  exact hbyte a ha

/-! ## The stack of a callee -/

/-- In `u` the two words that a call from `s` pushed stand and can be read: all that a return relies on (R214). -/
structure HoldsCall (s u : State) : Prop where
  returnAddress : u.byteAt s.sp ++ u.byteAt (s.sp + 1#16) = s.pc + 3#16
  savedSp : u.byteAt (s.sp - 2#16) ++ u.byteAt (s.sp - 1#16) = s.sp - 2#16
  readable : ∀ a ∈ wordAt s.sp ++ wordAt (s.sp - 2#16), u.kindAt a ≠ .device

section HoldsCall

variable {s t u : State}

/-- A completed call wrote all four bytes, so they are RAM. -/
theorem HoldsCall.of_calling {target : Word} (h : s.calling target = .next t) : HoldsCall s t := by
  have hcall := s.calling_accesses target
  obtain ⟨hret, hsaved, -, -, -, hframe⟩ := hcall.of_eq_next h
  obtain ⟨-, hram⟩ := hcall.kinds_of_eq_next h
  refine ⟨hret, hsaved, fun a ha => ?_⟩
  rw [State.kindAt_eq hframe.platform_eq, hram a ha]
  exact nofun

theorem HoldsCall.of_exec {i : Instr} (hi : (∃ a, i = .cal a) ∨ ∃ g q o, i = .car g q o)
    (h : exec i s = .next t) : HoldsCall s t := by
  obtain ⟨a, rfl⟩ | ⟨g, q, o, rfl⟩ := hi
  · exact .of_calling (target := a) h
  · exact .of_calling (target := s.eaOff12 q o) h

/-- What the callee does elsewhere does not matter. -/
theorem HoldsCall.of_agree (h : HoldsCall s t)
    (hbyte : ∀ a ∈ [s.sp, s.sp + 1#16, s.sp - 2#16, s.sp - 1#16], u.byteAt a = t.byteAt a)
    (hplatform : u.platform = t.platform) : HoldsCall s u where
  returnAddress := by
    rw [hbyte s.sp (by simp), hbyte (s.sp + 1#16) (by simp)]; exact h.returnAddress
  savedSp := by
    rw [hbyte (s.sp - 2#16) (by simp), hbyte (s.sp - 1#16) (by simp)]; exact h.savedSp
  readable a ha := by
    rw [State.kindAt_eq hplatform]; exact h.readable a ha

/-- A return with the stack address SP - 2 of the caller goes back to it (R211, R214). -/
theorem HoldsCall.returning_completes (h : HoldsCall s u) :
    Completes (u.returning (s.sp - 2#16)) fun v => v.sp = s.sp ∧ v.pc = s.pc + 3#16 := by
  have hfirst : s.sp - 2#16 + 2#16 = s.sp := BitVec.sub_add_cancel ..
  have hsecond : s.sp - 2#16 + 3#16 = s.sp + 1#16 := by bv_omega
  obtain ⟨hcompletes, -⟩ := u.returning_accesses (s.sp - 2#16)
  rw [hfirst, hsecond] at hcompletes
  obtain ⟨v, hv, hsp, hpc, -⟩ :=
    hcompletes (fun a ha => h.readable a (List.mem_append_left _ ha)) (List.forall_mem_nil _)
  exact ⟨v, hv, hsp, hpc.trans h.returnAddress⟩

/-- With a balanced stack POP loads the caller's SP - 2, which is where SP is left, so POP SP agrees (R214). -/
theorem HoldsCall.pop_completes (h : HoldsCall s u) (hbalanced : u.sp = s.sp - 4#16) (r : Reg) :
    Completes (exec (.pop r) u) fun w => w.reg r = s.sp - 2#16 ∧ HoldsCall s w := by
  have hfirst : u.sp + 2#16 = s.sp - 2#16 := by rw [hbalanced]; bv_omega
  have hsecond : u.sp + 3#16 = s.sp - 1#16 := by rw [hbalanced]; bv_omega
  obtain ⟨hcompletes, -⟩ := popIncrementsSpThenLoads r u
  rw [hfirst, hsecond] at hcompletes
  obtain ⟨w, hw, hloaded, -, -, -, hframe⟩ :=
    hcompletes (fun a ha => h.readable a (List.mem_append_right _ ha)) (List.forall_mem_nil _)
  exact ⟨w, hw, hloaded.trans h.savedSp,
    h.of_agree (fun _ _ => hframe.byteAt_eq List.not_mem_nil) hframe.platform_eq⟩

end HoldsCall

end Sys2Proof.Machine
end

section
/-! The statements of 45_subroutine.md. -/

namespace Sys2Proof.Machine

/-- Settles O52: the two calls are one step, each with its own target. -/
theorem callsPushReturnAddressAndSp : Obligations.CallsPushReturnAddressAndSp := by
  intro r addr16 ign off12 s pushed called
  refine ⟨s.calling_accesses addr16, ?car⟩
  rw [← s.eaOff12_eq]
  exact s.calling_accesses (s.eaOff12 r off12)

/-- Settles O53: the two returns are one step, each with its own stack address. -/
theorem returnsPopPcAboveTheAddress : Obligations.ReturnsPopPcAboveTheAddress := by
  intro r addr16 ign off12 s returned returns
  refine ⟨s.returning_accesses addr16, ?rcr⟩
  rw [← s.eaOff12_eq]
  exact s.returning_accesses (s.eaOff12 r off12)

/-- Settles O54: each way is a return with the stack address SP - 2 of the caller, in a state in which the pushed words
stand. -/
theorem threeWaysToReturnFromACall : Obligations.ThreeWaysToReturnFromACall := by
  intro i s t u r ign hi hcall hbytes hplatform back
  have hu : HoldsCall s u := (HoldsCall.of_exec hi hcall).of_agree hbytes hplatform
  have hrcr {q : Reg} {off : BitVec 12} {w : State} (hw : HoldsCall s w)
      (haddr : w.reg q + BitVec.ofNat 16 off.toNat = s.sp - 2#16) : Completes (exec (.rcr ign q off) w) back := by
    rw [← w.eaOff12_eq] at haddr
    have hreturn := hw.returning_completes
    rwa [← haddr] at hreturn
  refine ⟨fun hbalanced => hrcr hu ?sp, fun hbalanced => ?pop, hu.returning_completes⟩
  case sp =>
    show u.sp + 2#16 = s.sp - 2#16
    rw [hbalanced]; bv_omega
  case pop =>
    obtain ⟨w, hpop, hloaded, hw⟩ := hu.pop_completes hbalanced r
    exact ⟨w, hpop, hrcr hw (by rw [hloaded]; exact BitVec.add_zero _)⟩

end Sys2Proof.Machine
end

section
/-! SUPPORT. IRF as an equation, the results of the rotates and shifts bit by bit, and the step that every rotate and
shift is (46_irf_and_shift.md R220 to R225). -/

namespace Sys2Proof.Machine

/-! ## IRF -/

theorem exec_irf (mask8 : Byte) (s : State) :
    exec (.irf mask8) s = .next ((s.setZ ((s.rf &&& mask8) != 0#8)).advance 2) := rfl

/-- A flag under the mask is raised exactly when RF and the mask share a bit (R220). -/
theorem and_bne_zero_iff_exists_getLsbD (rf mask : Byte) :
    ((rf &&& mask) != 0#8) = true ↔ ∃ k, k < 8 ∧ rf.getLsbD k = true ∧ mask.getLsbD k = true := by
  rw [bne_iff_ne, ne_eq, BitVec.eq_of_getLsbD_eq_iff]
  simp

/-! ## Results bit by bit -/

section Bits

variable (a : Word) {n k : Nat}

/-- The rotate of bit vectors takes its count modulo the width; ROL's counts are below it (R221, R222). -/
theorem rolResult_eq_rotateLeft (hn : n < 16) : rolResult a n = a.rotateLeft n := by
  rw [BitVec.rotateLeft_def, Nat.mod_eq_of_lt hn, rolResult]
  split
  next hzero => simp [hzero, BitVec.ushiftRight_eq_zero]
  next => rfl

theorem rorResult_eq_rotateRight (hn : n < 16) : rorResult a n = a.rotateRight n := by
  rw [BitVec.rotateRight_def, Nat.mod_eq_of_lt hn, rorResult]
  split
  next hzero => simp [hzero]
  next => rfl

/-- The low `n` bits of ROL's result are those that went around, the others moved up by `n` (R222). -/
theorem rolResult_getLsbD (hn : n < 16) (hk : k < 16) :
    (rolResult a n).getLsbD k = a.getLsbD ((k + 16 - n) % 16) := by
  rw [rolResult_eq_rotateLeft a hn, BitVec.getLsbD_rotateLeft, Nat.mod_eq_of_lt hn]
  by_cases haround : k < n
  · have hbit : (k + 16 - n) % 16 = 16 - n + k := by omega
    simp [haround, hbit]
  · have hbit : (k + 16 - n) % 16 = k - n := by omega
    simp [haround, hk, hbit]

/-- The high `n` bits of ROR's result are those that went around, the others moved down by `n` (R223). -/
theorem rorResult_getLsbD (hn : n < 16) (hk : k < 16) :
    (rorResult a n).getLsbD k = a.getLsbD ((k + n) % 16) := by
  rw [rorResult_eq_rotateRight a hn, BitVec.getLsbD_rotateRight, Nat.mod_eq_of_lt hn]
  by_cases hmoved : k < 16 - n
  · have hbit : (k + n) % 16 = n + k := by omega
    simp [hmoved, hbit]
  · have hbit : (k + n) % 16 = k - (16 - n) := by omega
    simp [hmoved, hk, hbit]

/-- SHL moves every bit up by `n`, and zeros enter below bit `n` (R224). -/
theorem shlResult_getLsbD (hk : k < 16) :
    (shlResult a n).getLsbD k = (decide (n ≤ k) && a.getLsbD (k - n)) := by
  rw [shlResult, BitVec.getLsbD_shiftLeft, decide_eq_true hk, Bool.true_and, ← decide_not,
    decide_eq_decide.2 Nat.not_lt]

/-- SHR moves every bit down by `n`; the bits past bit 15 that would come next are 0 (R225). -/
theorem shrResult_getLsbD : (shrResult a n).getLsbD k = (decide (k + n < 16) && a.getLsbD (k + n)) := by
  rw [shrResult, BitVec.getLsbD_ushiftRight, Nat.add_comm n k]
  by_cases hinside : k + n < 16
  · simp [hinside]
  · rw [decide_eq_false hinside, Bool.false_and]
    exact BitVec.getLsbD_of_ge a (k + n) (Nat.le_of_not_lt hinside)

end Bits

/-! ## Steps -/

section Steps

variable (s : State) (d : Reg) {n : Nat}

/-- A rotate or shift whose result has the bits `bit`; `out` gives the last bit moved out from the result (R221). -/
theorem State.writeArith_shifted {v : Word} {bit : Nat → Bool} (out : Word → Bool)
    (hbits : ∀ k, k < 16 → v.getLsbD k = bit k) :
    Completes (.next (s.writeArith d v (s.shiftC n (out v)) 2)) fun t => s.shifted t d n bit (out (t.reg d)) := by
  obtain ⟨hreg, hflags, hpc, hframe⟩ := s.writeArith_spec d v (s.shiftC n (out v)) 2
  refine ⟨_, rfl, ?_⟩
  simp only [State.shifted, hreg]
  exact ⟨hbits, hflags, hpc, hframe⟩

theorem State.rotateLeft_shifted (hn : n < 16) :
    Completes (.next (s.rotateLeft d n)) fun t =>
      s.shifted t d n (fun k => (s.reg d).getLsbD ((k + 16 - n) % 16)) ((t.reg d).getLsbD 0) :=
  s.writeArith_shifted d (fun v => v.getLsbD 0) fun _ => rolResult_getLsbD (s.reg d) hn

theorem State.rotateRight_shifted (hn : n < 16) :
    Completes (.next (s.rotateRight d n)) fun t =>
      s.shifted t d n (fun k => (s.reg d).getLsbD ((k + n) % 16)) ((t.reg d).getLsbD 15) :=
  s.writeArith_shifted d (fun v => v.getLsbD 15) fun _ => rorResult_getLsbD (s.reg d) hn

theorem State.shiftLeft_shifted (n : Nat) :
    Completes (.next (s.shiftLeft d n)) fun t =>
      s.shifted t d n (fun k => decide (n ≤ k) && (s.reg d).getLsbD (k - n)) ((s.reg d).getLsbD (16 - n)) :=
  s.writeArith_shifted d (fun _ => shlOut (s.reg d) n) fun _ => shlResult_getLsbD (s.reg d)

theorem State.shiftRight_shifted (n : Nat) :
    Completes (.next (s.shiftRight d n)) fun t =>
      s.shifted t d n (fun k => decide (k + n < 16) && (s.reg d).getLsbD (k + n)) ((s.reg d).getLsbD (n - 1)) :=
  s.writeArith_shifted d (fun _ => shrOut (s.reg d) n) fun _ _ => shrResult_getLsbD (s.reg d)

end Steps

end Sys2Proof.Machine
end

section
/-! The statements of 46_irf_and_shift.md. In O56 and O57 the register form's count is brought to the model's
`countOfWord`; the immediate form's is imm4 as it stands. -/

namespace Sys2Proof.Machine

/-- Settles O55: Z is the test of RF under the mask, and the frame is that of every instruction outside
`ControlInstr`. -/
theorem irfTellsWhetherAMaskedFlagIsRaised : Obligations.IrfTellsWhetherAMaskedFlagIsRaised := by
  intro mask8 s
  have hstep : OrdinaryStep (.irf mask8) s _ := exec_ordinaryStep nofun (exec_irf mask8 s)
  refine ⟨_, exec_irf mask8 s, ?z, rsByte_c .., rsByte_s .., rsByte_low .., rfl, hstep.frame⟩
  rw [← and_bne_zero_iff_exists_getLsbD, State.advance_rs, State.setZ_rs, rsByte_z]

/-- Settles O56: each rotate is one step for every count below 16, and both forms give such a count. -/
theorem rotatesMoveBitsAround : Obligations.RotatesMoveBitsAround := by
  intro s left right
  have hcount (r : Reg) : countOfWord (s.reg r) < 16 := BitVec.isLt _
  refine ⟨fun rM rL => ?rolR, fun imm4 r _ => s.rotateLeft_shifted r imm4.isLt,
    fun rM rL => ?rorR, fun imm4 r _ => s.rotateRight_shifted r imm4.isLt⟩
  case rolR => rw [← countOfWord_eq]; exact s.rotateLeft_shifted rM (hcount rL)
  case rorR => rw [← countOfWord_eq]; exact s.rotateRight_shifted rM (hcount rL)

/-- Settles O57: each shift is one step for every count. -/
theorem shiftsFillWithZeros : Obligations.ShiftsFillWithZeros := by
  intro s left right
  refine ⟨fun rM rL => ?shlR, fun imm4 r _ => s.shiftLeft_shifted r imm4.toNat,
    fun rM rL => ?shrR, fun imm4 r _ => s.shiftRight_shifted r imm4.toNat⟩
  case shlR => rw [← countOfWord_eq]; exact s.shiftLeft_shifted rM _
  case shrR => rw [← countOfWord_eq]; exact s.shiftRight_shifted rM _

end Sys2Proof.Machine
end

section
/-! The statements of 47_local_branch.md. -/

namespace Sys2Proof.Machine

theorem exec_cli (mZ mC mS : Bool) (ign : BitVec 5) (s : State) :
    exec (.cli mZ mC mS ign) s = .next ((s.clearFlags mZ mC mS).advance 2) := rfl

/-- A flag under its mask bit, as CLI computes it, is the flag that R240 describes. -/
theorem and_not_eq_ite (flag mask : Bool) : (flag && !mask) = if mask then false else flag := by
  rw [Bool.if_false_left, Bool.decide_eq_true, Bool.and_comm]

/-- CLI leaves in RS the three flags of R240, with 0 in bits 4:0. -/
theorem State.clearFlags_flagsAre (s : State) (mZ mC mS : Bool) :
    (s.clearFlags mZ mC mS).flagsAre (if mZ then false else s.flagZ) (if mC then false else s.flagC)
      (if mS then false else s.flagS) := by
  simp only [← and_not_eq_ite]
  exact State.flagsAre_of_rs (s.clearFlags_rs ..)

/-- Settles O58: the flags are those of `clearFlags`, and the frame is that of every instruction outside
`ControlInstr`. -/
theorem cliClearsTheSelectedFlags : Obligations.CliClearsTheSelectedFlags := by
  intro mZ mC mS ign s
  have hstep : OrdinaryStep (.cli mZ mC mS ign) s _ := exec_ordinaryStep nofun (exec_cli mZ mC mS ign s)
  exact ⟨_, exec_cli mZ mC mS ign s, s.clearFlags_flagsAre mZ mC mS, rfl, hstep.frame⟩

/-- Settles O59: all seven are the immediate jump of R241, each under its own flag. -/
theorem immediateJumpsGoToNpcPlusOffset : Obligations.ImmediateJumpsGoToNpcPlusOffset := by
  intro off8 s go
  have hjump (c : Bool) : Host.Outcome.next (s.jumpImmIf c off8) = go c := congrArg _ (s.jumpImmIf_spec c off8)
  exact ⟨hjump true, hjump s.flagZ, hjump !s.flagZ, hjump s.flagS, hjump !s.flagS, hjump s.flagC, hjump !s.flagC⟩

end Sys2Proof.Machine
end

section
/-! SUPPORT. The platform and the environment's schedule under an instruction, and a clause about every completion of a
step that may be refused (60_exceptions.md R300; logs 8, 17). -/

namespace Sys2Proof.Machine

/-- No instruction, RST among them, touches the schedule or the platform (logs 4, 8). -/
theorem exec_events_platform {i : Instr} {s t : State} (h : exec i s = .next t) :
    t.events = s.events ∧ t.platform = s.platform := by
  by_cases hi : ControlInstr i
  · cases hi <;> cases h <;> exact ⟨rfl, rfl⟩
  · obtain ⟨-, -, -, -, -, -, hevents, -, hplatform⟩ := (exec_ordinaryStep hi h).frame
    exact ⟨hevents, hplatform⟩

/-- What holds of every next state a step can answer holds of its completion. -/
theorem State.Accesses.of_next {s : State} {reads writes : List Word} {o : Host.Outcome State Fault Refusal}
    {P Q : State → Prop} (h : s.Accesses reads writes o P) (hQ : ∀ t, o = .next t → Q t) :
    s.Accesses reads writes o Q := by
  obtain ⟨hcompletes, hrefused⟩ := h
  refine ⟨fun hreads hwrites => ?_, hrefused⟩
  obtain ⟨t, ht, -⟩ := hcompletes hreads hwrites
  exact ⟨t, ht, hQ t ht⟩

end Sys2Proof.Machine
end

section
/-! The statements of 60_exceptions.md. -/

namespace Sys2Proof.Machine

/-- Settles O11: the two ways a step of a core that is not asleep goes on from the boundary. -/
theorem interruptTakenExactlyWhenEnabledAndPending : Obligations.InterruptTakenExactlyWhenEnabledAndPending :=
  fun _ _ hu hawake => ⟨fun ⟨hie, hrf⟩ => ⟨step_of_interruptDue hu hie hrf, rfl⟩, step_executesNext hu hawake⟩

/-- Settles O13: with RF at 0x00 before it, the raised flag is all of RF at the boundary, so the core is not asleep
there, and IE decides whether an interrupt is due. -/
theorem raisedFlagWakesCore : Obligations.RaisedFlagWakesCore := by
  intro s e es _ hrf hevents hraised u
  have hu : s.atBoundary { s with events := es, rf := e &&& 0xE0#8 } :=
    .inr ⟨e, es, hevents, by rw [hrf, BitVec.zero_or]⟩
  refine ⟨fun hie => ?entry, fun hie => ?goesOn⟩
  case entry =>
    have hentry := step_of_interruptDue hu hie hraised
    exact hentry
  case goesOn =>
    exact step_executesNext hu (fun ⟨_, hclear⟩ => hraised hclear) fun ⟨hset, _⟩ => by cases hie.symm.trans hset

/-- Settles O19: completion and refusal by `exec_accesses`, and of the next state what is true of each one. -/
theorem everyListedInstructionCompletes : Obligations.EveryListedInstructionCompletes := by
  intro i s hlisted
  refine (exec_accesses hlisted s).of_next fun t h => ?_
  obtain ⟨hevents, hplatform⟩ := exec_events_platform h
  exact ⟨hevents, hplatform, fun hint hrst => exec_intState hint hrst h⟩

end Sys2Proof.Machine
end

section
/-! The statement of 49_immediate_and_increment.md on INC and DEC. -/

namespace Sys2Proof.Machine

/-- The carry of a sum with 1 is set for 65535 alone (R271, decision D15). -/
theorem addCarry_one (a : Word) : addCarry a 1#16 = decide (a.toNat = 65535) := by
  rw [addCarry_eq_decide, decide_eq_decide, BitVec.toNat_one (by decide)]
  omega

/-- The borrow of a difference with 1 is set for 0 alone (R272, decision D15). -/
theorem subBorrow_one (a : Word) : subBorrow a 1#16 = decide (a.toNat = 0) := by
  rw [subBorrow, decide_eq_decide, BitVec.toNat_one (by decide), Nat.lt_one_iff]

theorem subResult_one_toNat (a : Word) : (subResult a 1#16).toNat = (a.toNat + 65535) % 65536 := by
  rw [subResult_toNat, BitVec.toNat_one (by decide)]
  omega

/-- Settles O60: arithmetic results with 1 as the second operand, one byte long. -/
theorem incAndDecResultsAndFlags : Obligations.IncAndDecResultsAndFlags := by
  intro r s a
  exact ⟨s.writeArith_completes r 1 (addResult_toNat (s.reg r) 1#16) (addCarry_one (s.reg r)),
    s.writeArith_completes r 1 (subResult_one_toNat (s.reg r)) (subBorrow_one (s.reg r))⟩

end Sys2Proof.Machine
end

section
/-! The sample words of 95_test_vectors.md, section 2. -/

namespace Sys2Proof.Machine

/-- Settles O5: each word is the encoding of the instruction listed for it, and no byte is left over. -/
theorem sampleWordsDecode : Obligations.SampleWordsDecode :=
  ⟨decode_of_encode_one rfl rfl, decode_of_encode_two rfl rfl, decode_of_encode_two rfl rfl,
    decode_of_encode_three rfl rfl, decode_of_encode_two rfl rfl, decode_of_encode_two rfl rfl,
    decode_of_encode_three rfl rfl⟩

end Sys2Proof.Machine
end
